-- ==== Sys2Proof/Word.lean ====
section
/-! DEFINITION. The word types of the part's wires: bytes, tags and slot maps (spec/11_formats.md). -/

namespace Sys2Proof

/-- A byte as sent on the domain line or on the control link. -/
abbrev Byte := BitVec 8

/-- The tag the host gives a request (R160: the CLP does not read it). -/
abbrev Tag := BitVec 16

/-- A slot map or slot mask: slot `n` is bit `n` (11_formats.md). -/
abbrev SlotMap := BitVec 64

end Sys2Proof
end

