-- ==== Sys2Proof/Syntax.lean ====
section
/-! DEFINITION. The commands of the part: one constructor for every row of spec/opcode_table.json. Operands of a
request are the fields of its body at the widths of spec/11_formats.md, so every value that can be sent can be
written here. Operands of the line's rows are what the line delivers. -/

namespace Sys2Proof.Machine

/-- One bit time on the line (R184): a data bit, or one of the code violations J (high throughout) and K (low
throughout). -/
inductive LineBit where
  | data (b : Bool)
  | j
  | k
  deriving DecidableEq, Repr

end Sys2Proof.Machine

namespace Sys2Proof

open Machine

/-- The 42 bytes of a PATH body, field by field as sent (11_formats.md section 11.5). -/
structure PathBody where
  source : BitVec 16
  destination : BitVec 16
  width : Byte
  fitPolicy : Byte
  lo : Byte
  hi : Byte
  budget : BitVec 24
  dmin : BitVec 24
  dmax : BitVec 24
  maxHops : Byte
  priority : Byte
  options : Byte
  nodeMask : Byte
  nodes : Vector (BitVec 16) 4
  keyMask : Byte
  keys : Vector (BitVec 16 × Byte) 4
  deriving DecidableEq, Repr

/-- One constructor for each row of the opcode table. Times (`dt`) are in bit times. -/
inductive Instr where
  /-- IDENTITY (R171) -/
  | identity (tag : Tag) (nodeId : BitVec 16) (profileIndex transit portCount : Byte)
  /-- TIMING (R172) -/
  | timing (tag : Tag)
      (ri joinListen watchTime contestWindow holdLifetime commitLifetime budget ifg : BitVec 16)
  /-- PROFILE (R74) -/
  | profile (tag : Tag) (index scale pass add drop : BitVec 16)
  /-- JOIN (R174) -/
  | join (tag : Tag)
  /-- LEAVE (R180) -/
  | leave (tag : Tag)
  /-- PORT_SET (R44) -/
  | portSet (tag : Tag) (port enabled : Byte) (cost noise dispersion : BitVec 16) (used : SlotMap)
  /-- PORT_TRACE, the word form (R46) -/
  | portTrace (tag : Tag) (port : Byte) (word : BitVec 32)
  /-- PORT_TRACE_LOSS, the loss-of-trace form (R47) -/
  | portTraceLoss (tag : Tag) (port : Byte)
  /-- PATH (R118) -/
  | path (tag : Tag) (body : PathBody)
  /-- ABORT (R137) -/
  | abort (tag sought : Tag)
  /-- HOLD_COMMIT (R98) -/
  | holdCommit (tag : Tag) (number : Byte)
  /-- HOLD_RELEASE (R100) -/
  | holdRelease (tag : Tag) (number : Byte)
  /-- POLL (R115) -/
  | poll (tag : Tag)
  /-- BLOCK_SET (R87): the operation byte as sent, 0 for SET -/
  | blockSet (tag : Tag) (node : BitVec 16) (port operation : Byte) (mask : SlotMap)
  /-- BLOCK_CLEAR (R87): the operation byte as sent, 1 for CLEAR -/
  | blockClear (tag : Tag) (node : BitVec 16) (port operation : Byte) (mask : SlotMap)
  /-- TRIM (R79) -/
  | trim (tag : Tag) (index fields : Byte)
  /-- QUERY_NODE (R38) -/
  | queryNode (tag : Tag) (node : BitVec 16) (mode : Byte)
  /-- QUERY_LINK (R39) -/
  | queryLink (tag : Tag) (node : BitVec 16) (port mode : Byte)
  /-- QUERY_PORT (R53) -/
  | queryPort (tag : Tag) (port : Byte)
  /-- QUERY_OWN_HOLD, the hold form (R116) -/
  | queryOwnHold (tag : Tag) (number : Byte)
  /-- QUERY_OWN_HOLD_LINK, the link form (R116) -/
  | queryOwnHoldLink (tag : Tag) (node : BitVec 16) (port : Byte)
  /-- STATUS (R167) -/
  | status (tag : Tag)
  /-- FETCH (R161): how many bytes of the answer the host clocks out -/
  | fetch (bytes : Nat)
  /-- MALFORMED (R159): the header's kind code, subject (read for QUERY alone) and body length -/
  | malformed (kind subject : Byte) (length : BitVec 16)
  /-- SELECT_RELEASE (R158) -/
  | selectRelease
  /-- RESET_LINE_ASSERT (R183) -/
  | resetLineAssert
  /-- RESET_LINE_RELEASE (R20) -/
  | resetLineRelease
  /-- RECEIVE_ACTIVITY_RISE (R1), `dt` after the event before it -/
  | receiveActivityRise (dt : Nat)
  /-- RECEIVE_ACTIVITY_FALL (R9), `dt` after the event before it -/
  | receiveActivityFall (dt : Nat)
  /-- FRAME_DROPPED (R16): the bit times that the line delivers, from any point in a frame or between frames: those
  received so far, and those that end the frame -/
  | frameDropped (received ending : List LineBit)
  /-- ADVERT_RECEIVED (R32) -/
  | advertReceived (origin : BitVec 16) (body : List Byte)
  /-- SOLICIT_RECEIVED (R63) -/
  | solicitReceived (origin : BitVec 16) (body : List Byte)
  /-- ANNOUNCE_RECEIVED (R106) -/
  | announceReceived (origin : BitVec 16) (body : List Byte)
  /-- OBJECT_RECEIVED (R106) -/
  | objectReceived (origin : BitVec 16) (body : List Byte)
  /-- COMMIT_RECEIVED (R105) -/
  | commitReceived (origin : BitVec 16) (body : List Byte)
  /-- RELEASE_RECEIVED (R109) -/
  | releaseReceived (origin : BitVec 16) (body : List Byte)
  /-- DUPLICATE_IDENTITY (R178) -/
  | duplicateIdentity
  /-- ATTEMPT_START (R8), `dt` after the event before it -/
  | attemptStart (dt : Nat)
  /-- ATTEMPT_SUCCEEDED (R12): the end delimiter is received back, with every bit of the echo matched -/
  | attemptSucceeded
  /-- COLLISION (R12): the echo received so far, from the first preamble bit to the first mismatch -/
  | collision (echo : List LineBit)
  /-- ECHO_LOST (R11) -/
  | echoLost
  /-- RI_TICK (R173) -/
  | riTick
  /-- SILENCE_WATCH_EXPIRY (R18) -/
  | silenceWatchExpiry
  /-- CONTEST_EXPIRY (R94) -/
  | contestExpiry (slot : Fin 8)
  /-- HOLD_LIFETIME_EXPIRY (R101) -/
  | holdLifetimeExpiry (slot : Fin 8)
  /-- PEER_LIFETIME_EXPIRY (R108) -/
  | peerLifetimeExpiry (origin : BitVec 16) (number : Byte)
  /-- SEARCH_START (R122) -/
  | searchStart
  /-- PASS_START (R127) -/
  | passStart
  /-- SELECTION_STEP (R128) -/
  | selectionStep
  /-- SEARCH_COMPLETION (R140) -/
  | searchCompletion
  /-- SEARCH_ABORT_END (R138) -/
  | searchAbortEnd
  deriving DecidableEq, Repr

end Sys2Proof
end

