-- ==== Sys2Proof/Machine/State.lean ====
section
/-! DEFINITION. The state of the part: one record for each block that owns state (spec/00_scope.md section 4),
the waiting commands, and the state right after reset. Plain data throughout. -/

namespace Sys2Proof.Machine

/-! ### Names shared by the blocks -/

/-- The eight station states (R170). -/
inductive Station where
  | unconfigured
  | identified
  | configured
  | listening
  | announcing
  | operating
  | leaving
  | muted
  deriving DecidableEq, Repr

/-- A link key: the pair (from-node, from-port) that identifies a directed link (00_scope.md section 5). -/
structure LinkKey where
  node : Nat
  port : Nat
  deriving DecidableEq, Repr

/-- The kinds an entry of the due list may have. The withdraw ADVERT stands apart because R5 and R14 tell it from
the other ADVERTs; on the line both are kind ADVERT. -/
inductive FrameKind where
  | advert
  | withdraw
  | solicit
  | announce
  | object
  | commit
  | release
  deriving DecidableEq, Repr

/-! ### LAC: the domain line -/

/-- An entry of the due list (R3). Its place is the index it stands at. -/
structure Entry where
  kind : FrameKind
  cls : Fin 3
  dueMark : Nat
  attempts : Nat
  backoffEnd : Option Nat
  followOn : Option (FrameKind × Fin 3)
  withdrawn : Bool
  deriving DecidableEq, Repr

/-- The attempt on the line (R6, R10, R11): the place whose entry is being sent, the kind fixed by the start, the
bytes from header to check, and the time of the rise of transmit enable. -/
structure Attempt where
  place : Fin 10
  kind : FrameKind
  frame : List Byte
  startedAt : Nat
  deriving DecidableEq, Repr

/-- The silence watch (R18): stopped while the station has no membership, running with its elapsed time in bit
times, or expired and stopped until the next rise of receive activity. -/
inductive Watch where
  | off
  | running (elapsed : Nat)
  | expired
  deriving DecidableEq, Repr

/-- The receive assembler (R16, R185): the data bits since the start delimiter, absent while it waits for one, and the
bits so far of a group that began with a code violation. -/
structure Assembler where
  frame : Option (List Bool)
  group : List LineBit
  deriving DecidableEq, Repr

/-- The assembler is empty and waits for a start delimiter. -/
def Assembler.waiting : Assembler := ⟨none, []⟩

/-- The last run of bit times that the LAC put on transmit data (R1, R10 to R12, R15): the rise of transmit enable, the
bytes from header to check, and, where the frame was cut short, the bit times of it that went out before the abort
delimiter. -/
structure Transmission where
  startedAt : Nat
  frame : List Byte
  cut : Option Nat
  deriving DecidableEq, Repr

/-- The state of the Line Access Controller (R20). `echo` tells that the receive activity is the echo of the station's own
transmission (R11). -/
structure Lac where
  due : Vector (Option Entry) 10
  attempt : Option Attempt
  sending : Option Transmission
  budget : Nat
  idle : Nat
  activity : Bool
  echo : Bool
  lfsr : BitVec 16
  watch : Watch
  isolated : Bool
  assembler : Assembler
  deriving DecidableEq, Repr

/-! ### TV: the topology view -/

/-- A node record (R21). -/
structure NodeRecord where
  id : Nat
  profile : Nat
  transit : Bool
  sequence : BitVec 16
  age : Nat
  own : Bool
  missing : Nat
  deriving DecidableEq, Repr

/-- A link record (R22). -/
structure LinkRecord where
  key : LinkKey
  toNode : Nat
  toPort : Nat
  cost : Nat
  noise : Nat
  dispersion : Int
  used : SlotMap
  verified : Bool
  deriving DecidableEq, Repr

/-- The state of the Topology View (R41). Both tables stand in rising order of their keys. -/
structure Tv where
  nodes : List NodeRecord
  links : List LinkRecord
  viewIncomplete : Bool
  counter : BitVec 32
  deriving DecidableEq, Repr

/-! ### PT: the own ports -/

/-- The trace state of a port (R42). -/
inductive Trace where
  | dark
  | heard (node port : Nat)
  | looped
  deriving DecidableEq, Repr

/-- An own port record (R42). -/
structure PortRecord where
  enabled : Bool
  cost : Nat
  noise : Nat
  dispersion : Int
  used : SlotMap
  trace : Trace
  deriving DecidableEq, Repr

/-- The state of the Port Table. -/
structure Pt where
  ports : Vector PortRecord 16
  deriving DecidableEq, Repr

/-! ### ADS: the advertisement scheduler -/

/-- The content mark (R60). -/
inductive ContentMark where
  | clear
  | waiting
  | carried
  deriving DecidableEq, Repr

/-- The state of the Advertisement Scheduler (R55). -/
structure Ads where
  debt : Int
  sequence : BitVec 16
  freshCount : Nat
  announceCount : Nat
  postDropWait : Bool
  mark : ContentMark
  entryPresent : Bool
  deriving DecidableEq, Repr

/-! ### PF: the vendor profiles -/

/-- A vendor profile with its trims (R73). -/
structure Profile where
  scale : Nat
  pass : Nat
  add : Nat
  drop : Nat
  noiseTrim : Int
  penaltyTrim : Int
  deriving DecidableEq, Repr

/-- The state of the Profile Table. -/
structure Pf where
  profiles : Vector Profile 16
  deriving DecidableEq, Repr

/-! ### HU: spectrum and holds -/

/-- A hold record (R88). `own` is its side. The lifetime remaining is in bit times. The commit-requested flag and
the creating request tag of an own record stand in its slot alone (log 17). -/
structure Hold where
  origin : Nat
  number : BitVec 8
  own : Bool
  priority : Nat
  established : Bool
  committed : Bool
  start : Nat
  width : Nat
  links : List LinkKey
  lifetime : Option Nat
  deriving DecidableEq, Repr

/-- The outcome of an own hold (R90). -/
inductive HoldOutcome where
  | lost
  | expired
  | released
  | superseded
  | failed
  deriving DecidableEq, Repr

/-- The substate of a LIVE slot (R90). The contest timer, in bit times, runs in ANNOUNCED alone and counts up from
0 (log 31, DESIGN CHOICE: R93 and R94 differ on its direction); a commit request tag may wait in PENDING and ANNOUNCED
and always waits in COMMITTING. -/
inductive Substate where
  | pending (commitTag : Option Tag)
  | announced (contest : Nat) (commitTag : Option Tag)
  | held
  | committing (commitTag : Tag)
  | committed
  deriving DecidableEq, Repr

/-- An own hold slot (R90): the creating request's tag is `tag`. In CLOSING, `toEnded` is the after-close state:
ENDED when set, FREE when clear. -/
inductive Slot where
  | free
  | live (sub : Substate) (number : BitVec 8) (tag : Tag)
  | closing (number : BitVec 8) (tag : Tag) (outcome : HoldOutcome) (toEnded : Bool)
  | ended (number : BitVec 8) (tag : Tag) (outcome : HoldOutcome)
  deriving DecidableEq, Repr

/-- An entry of the block table (R86). -/
structure Block where
  key : LinkKey
  mask : SlotMap
  deriving DecidableEq, Repr

/-- The state of the Hold Unit (R114). Hold and block tables stand in rising order of their keys. -/
structure Hu where
  holds : List Hold
  slots : Vector Slot 8
  lastNumber : BitVec 8
  blocks : List Block
  overflow : Bool
  deriving DecidableEq, Repr

/-! ### PSU: path search -/

/-- The fit policies (R119). -/
inductive Fit where
  | first
  | last
  | best
  deriving DecidableEq, Repr

/-- A PATH request as taken, after clamping (R117, R120). -/
structure PathRequest where
  tag : Tag
  source : Nat
  destination : Nat
  width : Nat
  fit : Fit
  lo : Nat
  hi : Nat
  budget : Nat
  dmin : Int
  dmax : Int
  maxHops : Nat
  priority : Nat
  hold : Bool
  excludedNodes : List Nat
  excludedKeys : List LinkKey
  clamped : Bool
  deriving DecidableEq, Repr

/-- A label: one way of reaching a node within a pass (R125). -/
structure Label where
  node : Nat
  cost : Nat
  noise : Nat
  dispersion : Int
  hops : Nat
  arrival : Option LinkKey
  deriving DecidableEq, Repr

/-- A pass result (R117): each link of the path with the node it reaches. -/
structure PassResult where
  window : Nat
  path : List (LinkKey × Nat)
  cost : Nat
  noise : Nat
  dispersion : Int
  hops : Nat
  pruned : Bool
  deriving DecidableEq, Repr

/-- Which step of a search comes next (R126). -/
inductive SearchPhase where
  | passStart
  | selecting
  | completing
  deriving DecidableEq, Repr

/-- The search context (R117). The abort mark is set when `abortTag` is present; it holds the tag of the ABORT that
waits for the search's end (R138). The settled tree holds settled labels in the order they were settled. -/
structure Context where
  request : PathRequest
  abortTag : Option Tag
  snapshot : Vector Profile 16
  startCounter : BitVec 32
  window : Nat
  passes : Nat
  frontier : List Label
  tree : List Label
  bestArrival : Option Label
  passPruned : Bool
  anyPruned : Bool
  bestResult : Option PassResult
  phase : SearchPhase
  deriving DecidableEq, Repr

/-- The state of the Path Search Unit. While a context exists, the head of the queue is in flight. -/
structure Psu where
  queue : List PathRequest
  context : Option Context
  deriving DecidableEq, Repr

/-! ### CLP: the control link -/

/-- The subjects of QUERY (R159). -/
inductive QuerySubject where
  | node
  | link
  | port
  | ownHold
  deriving DecidableEq, Repr

/-- The request kinds (R188). -/
inductive RequestKind where
  | identity
  | timing
  | profile
  | join
  | leave
  | portSet
  | portTrace
  | path
  | abort
  | holdCommit
  | holdRelease
  | poll
  | block
  | trim
  | query (subject : QuerySubject)
  | status
  deriving DecidableEq, Repr

/-- The completion statuses (R165). -/
inductive Status where
  | ok
  | clamped
  | sequence
  | refused
  | notJoined
  | found
  | foundUnheld
  | noPath
  | stale
  | aborted
  | notFound
  | tableFull
  | traceInvalid
  | mediumFailed
  | duplicateId
  | inProgress
  | lost
  | released
  | failed
  | expired
  | superseded
  deriving DecidableEq, Repr

/-- The causes (R165). -/
inductive Cause where
  | none
  | range
  | unknownEnd
  | muted
  | slotsFull
  deriving DecidableEq, Repr

/-- One bit for each condition (R166): the marks, and the conditions as STATUS reports them. -/
structure Conditions where
  isolated : Bool
  muted : Bool
  viewIncomplete : Bool
  overflow : Bool
  deriving DecidableEq, Repr

/-- The identity values (R171). -/
structure Identity where
  nodeId : Nat
  profile : Nat
  transit : Bool
  portCount : Nat
  deriving DecidableEq, Repr

/-- The eight timing values (R172), in the units of that table. -/
structure Timing where
  ri : Nat
  joinListen : Nat
  watch : Nat
  contest : Nat
  hold : Nat
  commit : Nat
  budget : Nat
  ifg : Nat
  deriving DecidableEq, Repr

/-- Adjacency of a port (R52); `none` stands for absent. -/
inductive Adjacency where
  | verified
  | mismatch
  | unconfirmed
  deriving DecidableEq, Repr

/-- The flags and counts of a search completion (R142), and whether a hold was created (R190). -/
structure PathFlags where
  pruned : Bool
  moved : Bool
  viewIncomplete : Bool
  isolated : Bool
  overflow : Bool
  created : Bool
  deriving DecidableEq, Repr

/-- What a reported path carries beyond its flags and passes (R144, R190). -/
structure PathReport where
  holdNumber : BitVec 8
  window : Nat
  width : Nat
  cost : Nat
  noise : Nat
  dispersion : Int
  hops : Nat
  margin : Nat
  headroom : Int
  path : List (LinkKey × Nat)
  deriving DecidableEq, Repr

/-- What STATUS reports in a joined state (R167), in the order of its table. -/
structure StatusReport where
  station : Station
  conditions : Conditions
  marks : Conditions
  debt : Int
  budget : Nat
  nodes : Nat
  links : Nat
  live : Nat
  closing : Nat
  ended : Nat
  peerHolds : Nat
  blocks : Nat
  queue : Nat
  completions : Nat
  reservations : Nat
  counter : BitVec 32
  deriving DecidableEq, Repr

/-- The items of a completion, as the owning rule lists them (R163, R190). -/
inductive Items where
  | none
  | identity (v : Identity)
  | timing (v : Timing)
  | profile (index : Nat) (v : Profile)
  | port (port : Nat) (v : PortRecord)
  | trace (port : Nat) (trace : Trace)
  | portQuery (port : Nat) (v : PortRecord) (adjacency : Option Adjacency) (ownLink : Option Bool)
  | trim (index : Nat) (noiseTrim penaltyTrim : Int) (factor pass add drop : Nat)
  | block (key : LinkKey) (mask : SlotMap)
  | holdNumber (number : BitVec 8)
  | node (v : NodeRecord) (links verified : Nat)
  | link (v : LinkRecord)
  | ownHold (slot : Nat) (v : Slot) (record : Option Hold) (timerMs : Option Nat)
  | linkHolds (mask held : SlotMap) (count : Nat)
  | ended (list : List (BitVec 8 × HoldOutcome × Tag))
  | status (v : StatusReport)
  | stationOnly (station : Station) (conditions marks : Conditions)
  | result (flags : PathFlags) (passes : Nat) (report : PathReport)
  | noPath (flags : PathFlags) (passes : Nat)
  | aborted (passes : Nat)
  deriving DecidableEq, Repr

/-- A completion (R163). -/
structure Completion where
  kind : RequestKind
  tag : Tag
  status : Status
  cause : Cause
  clamped : Bool
  items : Items
  deriving DecidableEq, Repr

/-- The port's transaction (R158 to R161, R169): none; after a reset with select asserted, waiting for its release;
or open and decided, with the bytes that go out from the decision on and are not filler. -/
inductive Port where
  | idle
  | waitRelease
  | answering (sent : List Byte)
  deriving DecidableEq, Repr

/-- The state of the Control Link Port (R169). -/
structure Clp where
  completions : List Completion
  reservations : Nat
  marks : Conditions
  select : Bool
  port : Port
  deriving DecidableEq, Repr

/-! ### SC: the station controller -/

/-- The state of the Station Controller (R170). -/
structure Sc where
  station : Station
  identity : Option Identity
  timing : Option Timing
  muted : Bool
  riTimer : Option Nat
  listen : Nat
  joinWaiting : Option Tag
  leaveWaiting : Option Tag
  deriving DecidableEq, Repr

/-! ### The whole part -/

/-- The state of the part. `now` (the clock, in bit times), `events` (how many events were taken) and `pending` (the
commands that wait) are the model's own (log 1, log 11). -/
structure State where
  resetHeld : Bool
  now : Nat
  events : Nat
  lac : Lac
  tv : Tv
  pt : Pt
  ads : Ads
  pf : Pf
  hu : Hu
  psu : Psu
  clp : Clp
  sc : Sc
  pending : List Instr
  deriving DecidableEq, Repr

/-- The reasons the part could stop with a fault. -/
inductive Fault where
  /-- Raised by no meaning: the manual names no event that stops the part (its errors are completion statuses,
  dropped frames and reports). Safe: a fault that is never raised hides nothing. -/
  | unused
  deriving DecidableEq, Repr

/-- The reasons a command is refused by the model. -/
inductive Refusal where
  /-- Raised by `exec` alone, for a row of the table that has no meaning yet. Safe: nothing is claimed of a
  command that does not run. No row stands so now. -/
  | notModelled (mnemonic : String)
  deriving DecidableEq, Repr

/-! ### After reset -/

/-- Every condition, or every mark, clear. -/
def Conditions.none : Conditions := ⟨false, false, false, false⟩

/-- A port record after reset (R42). -/
def PortRecord.atReset : PortRecord := ⟨false, 1, 0, 0, 0, .dark⟩

/-- A profile at its defaults (R73): the identity. -/
def Profile.atReset : Profile := ⟨256, 0, 0, 0, 0, 0⟩

/-- The LAC after reset (R20). The receive activity pin is an input; it is taken as low (log 7, DESIGN CHOICE). -/
def Lac.atReset : Lac :=
  { due := Vector.replicate 10 Option.none, attempt := Option.none, sending := Option.none, budget := 0, idle := 0,
    activity := false, echo := false, lfsr := 0, watch := .off, isolated := false, assembler := .waiting }

/-- The TV after reset (R41). -/
def Tv.atReset : Tv := { nodes := [], links := [], viewIncomplete := false, counter := 0 }

/-- The PT after reset (R54). -/
def Pt.atReset : Pt := { ports := Vector.replicate 16 PortRecord.atReset }

/-- The ADS after reset and after LEAVE completes (R55, R71). -/
def Ads.atReset : Ads :=
  { debt := 0, sequence := 0, freshCount := 0, announceCount := 0, postDropWait := false, mark := .clear,
    entryPresent := false }

/-- The PF after reset (R83). -/
def Pf.atReset : Pf := { profiles := Vector.replicate 16 Profile.atReset }

/-- The HU after reset (R114). -/
def Hu.atReset : Hu :=
  { holds := [], slots := Vector.replicate 8 .free, lastNumber := 255, blocks := [], overflow := false }

/-- The PSU after reset (R117, R139). -/
def Psu.atReset : Psu := { queue := [], context := Option.none }

/-- The CLP after reset (R169). The select pin is an input; it is taken as released (log 7, DESIGN CHOICE). -/
def Clp.atReset : Clp :=
  { completions := [], reservations := 0, marks := Conditions.none, select := false, port := .idle }

/-- The SC after reset (R170). -/
def Sc.atReset : Sc :=
  { station := .unconfigured, identity := Option.none, timing := Option.none, muted := false,
    riTimer := Option.none, listen := 0, joinWaiting := Option.none, leaveWaiting := Option.none }

/-- The part right after the reset line is released: every block at its reset values, no command waiting. -/
def State.reset : State :=
  { resetHeld := false, now := 0, events := 0, lac := Lac.atReset, tv := Tv.atReset, pt := Pt.atReset,
    ads := Ads.atReset, pf := Pf.atReset, hu := Hu.atReset, psu := Psu.atReset, clp := Clp.atReset,
    sc := Sc.atReset, pending := [] }

end Sys2Proof.Machine
end

