-- ==== Sys2Proof/Machine/Table.lean ====
section
/-! DEFINITION. Keyed tables: lists in strictly rising order of a numeric key. The node, link, hold and block tables,
the frontier and the entries of an ADVERT are such lists, so equal tables are equal lists (log 24). -/

namespace Sys2Proof.Machine.Table

variable {α : Type}

/-- The record with key `k`. -/
def lookup (key : α → Nat) (k : Nat) (l : List α) : Option α := l.find? (fun x => key x == k)

/-- `l` with `x` in it, in place of the record that had its key. -/
def put (key : α → Nat) (x : α) : List α → List α
  | [] => [x]
  | y :: ys =>
    if key x < key y then x :: y :: ys
    else if key x = key y then x :: ys
    else y :: put key x ys

/-- `l` without the record with key `k`. -/
def erase (key : α → Nat) (k : Nat) (l : List α) : List α := l.filter (fun x => key x != k)

/-- The record with the least key above `k` (the NEXT mode of R38 and R39). -/
def next (key : α → Nat) (k : Nat) (l : List α) : Option α := l.find? (fun x => k < key x)

/-- The canonical form: keys strictly rising, so no two records share one. -/
def Sorted (key : α → Nat) (l : List α) : Prop := l.Pairwise (fun a b => key a < key b)

end Sys2Proof.Machine.Table

namespace Sys2Proof.Machine

/-- The number of a link key, in the order of R39: by from-node, then by from-port. -/
def LinkKey.code (k : LinkKey) : Nat := k.node * 256 + k.port

/-- The number of a hold's key (origin, hold number) (R88). -/
def holdCode (origin : Nat) (number : BitVec 8) : Nat := origin * 256 + number.toNat

/-- The key of a hold record. -/
def Hold.code (h : Hold) : Nat := holdCode h.origin h.number

/-- The key of a link record. -/
def LinkRecord.code (l : LinkRecord) : Nat := l.key.code

/-- The key of a block-table entry. -/
def Block.code (b : Block) : Nat := b.key.code

end Sys2Proof.Machine
end

