-- ==== Sys2Proof/Machine/Formats.lean ====
section
/-! DEFINITION. The wire images of spec/11_formats.md and the envelope of spec/01_the_domain_line.md section 1.2:
byte order, the check, frames, frame bodies, the line code, the trace word, and the bytes of completions. -/

namespace Sys2Proof.Machine

/-! ### Bytes -/

/-- The `k` low bytes of `n`, high byte first. -/
def bigEndian : Nat → Nat → List Byte
  | 0, _ => []
  | k + 1, n => BitVec.ofNat 8 (n / 256 ^ k) :: bigEndian k n

/-- The number whose bytes these are, high byte first. -/
def ofBytes (l : List Byte) : Nat := l.foldl (fun a b => a * 256 + b.toNat) 0

/-- The number in the `k` bytes from byte `i` on. -/
def field (l : List Byte) (i k : Nat) : Nat := ofBytes ((l.drop i).take k)

/-- The signed number in the two bytes from byte `i` on. -/
def signedField (l : List Byte) (i : Nat) : Int := (BitVec.ofNat 16 (field l i 2)).toInt

/-- The `k` bytes of a two's complement number. -/
def signedBytes (k : Nat) (n : Int) : List Byte := bigEndian k (BitVec.ofInt (8 * k) n).toNat

/-- A flag byte: 0 or 1. -/
def flagByte (b : Bool) : List Byte := [if b then 1 else 0]

/-! ### The check (R2) -/

/-- One bit of the CRC register's shift: generator x^16 + x^12 + x^5 + 1. -/
def crcShift (c : BitVec 16) : BitVec 16 := if c.msb then (c <<< 1) ^^^ 0x1021#16 else c <<< 1

/-- The register after one byte, most significant bit first. -/
def crcByte (c : BitVec 16) (b : Byte) : BitVec 16 :=
  crcShift <| crcShift <| crcShift <| crcShift <| crcShift <| crcShift <| crcShift <| crcShift
    (c ^^^ (b.setWidth 16 <<< 8))

/-- The CRC-16 of R2: register preset to 0xFFFF, not inverted. -/
def crc16 (l : List Byte) : BitVec 16 := l.foldl crcByte 0xFFFF#16

/-! ### Frames (R2, R16) -/

/-- The kind code of a frame (11_formats.md section 11.1). -/
def FrameKind.code : FrameKind → Byte
  | .advert => 0x21
  | .withdraw => 0x21
  | .solicit => 0x22
  | .announce => 0x31
  | .object => 0x32
  | .commit => 0x33
  | .release => 0x34

/-- The kind a received code names; an ADVERT is read as `advert`, its withdraw flag being in the body. -/
def frameKindOf (c : Byte) : Option FrameKind :=
  if c = 0x21 then some .advert
  else if c = 0x22 then some .solicit
  else if c = 0x31 then some .announce
  else if c = 0x32 then some .object
  else if c = 0x33 then some .commit
  else if c = 0x34 then some .release
  else none

/-- Header and body of a frame: kind, origin, body length, body. -/
def frameContent (kind : FrameKind) (origin : Nat) (body : List Byte) : List Byte :=
  kind.code :: bigEndian 2 origin ++ bigEndian 2 body.length ++ body

/-- A frame between its start and end delimiters (R2): header, body and check. -/
def frameBytes (kind : FrameKind) (origin : Nat) (body : List Byte) : List Byte :=
  frameContent kind origin body ++ bigEndian 2 (crc16 (frameContent kind origin body)).toNat

/-- The full length of a frame (R2): preamble 2, delimiters 1 each, header 5 and check 2 beside the body. -/
def fullLength (bodyLength : Nat) : Nat := bodyLength + 11

/-- The longest body (section 1.2). -/
def maxBody : Nat := 512

/-- A node identifier is a number from 1 to 65534 (00_scope.md section 5). -/
def validNode (n : Nat) : Bool := decide (1 ≤ n) && decide (n ≤ 65534)

/-- How the collection of a received frame ended (R16, R185). -/
inductive FrameEnd where
  /-- an end delimiter -/
  | endDelimiter
  /-- an abort delimiter -/
  | abortDelimiter
  /-- 519 bytes were collected with no end delimiter -/
  | overrun
  /-- another group with a code violation -/
  | violation
  /-- a start delimiter, which begins a new frame -/
  | startDelimiter
  deriving DecidableEq, Repr

/-- What the receive assembler makes of a collected frame (R16): `none` where the frame is dropped, otherwise its
kind, origin and body. -/
def judgeFrame (received : List Byte) (ending : FrameEnd) : Option (FrameKind × Nat × List Byte) :=
  let length := field received 3 2
  let body := (received.drop 5).take length
  let origin := field received 1 2
  if ending = .endDelimiter ∧ 5 ≤ received.length ∧ length ≤ maxBody ∧ received.length = 5 + length + 2
      ∧ field received (5 + length) 2 = (crc16 (received.take (5 + length))).toNat ∧ validNode origin then
    (frameKindOf (received.headD 0)).map (fun kind => (kind, origin, body))
  else none

/-! ### The line code (R184, R185) -/

/-- The levels of the two halves of a bit time (R184). -/
def LineBit.levels : LineBit → Bool × Bool
  | .data true => (false, true)
  | .data false => (true, false)
  | .j => (true, true)
  | .k => (false, false)

/-- The preamble: 16 data bits 1, 0, … ending with 0. -/
def preamble : List LineBit := (List.replicate 8 [LineBit.data true, LineBit.data false]).flatten

/-- The start delimiter. -/
def startDelimiter : List LineBit :=
  [.j, .j, .k, .k, .data true, .data false, .data true, .data true]

/-- The end delimiter. -/
def endDelimiter : List LineBit :=
  [.k, .k, .j, .j, .data true, .data true, .data false, .data true]

/-- The abort delimiter. -/
def abortDelimiter : List LineBit := [.j, .j, .j, .j, .k, .k, .k, .k]

/-- The bits of a byte, bit 7 first. -/
def byteBits (b : Byte) : List LineBit :=
  [.data (b.getLsbD 7), .data (b.getLsbD 6), .data (b.getLsbD 5), .data (b.getLsbD 4),
   .data (b.getLsbD 3), .data (b.getLsbD 2), .data (b.getLsbD 1), .data (b.getLsbD 0)]

/-- The whole run of bit times of a frame (R2, R10). -/
def lineRun (frame : List Byte) : List LineBit :=
  preamble ++ startDelimiter ++ frame.flatMap byteBits ++ endDelimiter

/-- The run of a transmission: the frame whole, or the part that went out and the abort delimiter (R10 to R12, R15). -/
def Transmission.bits (x : Transmission) : List LineBit :=
  match x.cut with
  | none => lineRun x.frame
  | some n => (lineRun x.frame).take n ++ abortDelimiter

/-- The echo compared bit by bit with what was sent (R12): the bit times up to the end of the first that differs. -/
def firstMismatch : List LineBit → List LineBit → Option Nat
  | sent :: rest, got :: echo => if sent = got then (firstMismatch rest echo).map (· + 1) else some 1
  | _, _ => none

/-! ### The receive assembler (R16, R185) -/

/-- What a group of eight bit times that begins with a code violation does inside a frame (R185). -/
def groupEnds (g : List LineBit) : FrameEnd :=
  if g = startDelimiter then .startDelimiter
  else if g = endDelimiter then .endDelimiter
  else if g = abortDelimiter then .abortDelimiter
  else .violation

/-- A group is whole: a start delimiter begins a frame, ending the one before; inside a frame every other group ends
it; outside a frame every other group is ignored (R185). -/
def Assembler.endGroup (a : Assembler) (e : FrameEnd) : Assembler × Option (List Bool × FrameEnd) :=
  (if e = .startDelimiter then ⟨some [], []⟩ else .waiting, a.frame.map (fun bits => (bits, e)))

/-- The most bytes that are collected after a start delimiter (R16). -/
def collectedBytes : Nat := 519

/-- The assembler takes one bit time, and the frame it ends, if any, goes out with its ending (R16, R185). Data bits
before a start delimiter are ignored; a code violation begins a group of eight bit times. -/
def Assembler.take (a : Assembler) (b : LineBit) : Assembler × Option (List Bool × FrameEnd) :=
  match a.group, b with
  | [], .data d =>
    match a.frame with
    | none => (a, none)
    | some bits =>
      if bits.length < 8 * collectedBytes then (⟨some (bits ++ [d]), []⟩, none) else (.waiting, some (bits, .overrun))
  | g, b => if g.length + 1 < 8 then (⟨a.frame, g ++ [b]⟩, none) else a.endGroup (groupEnds (g ++ [b]))

/-- The assembler after the bit times of `line`. -/
def Assembler.after (a : Assembler) (line : List LineBit) : Assembler := line.foldl (fun a b => (a.take b).1) a

/-- The frames that end while the line delivers `line`, in order, each with its ending. -/
def Assembler.ended (a : Assembler) : List LineBit → List (List Bool × FrameEnd)
  | [] => []
  | b :: line => (a.take b).2.toList ++ (a.take b).1.ended line

/-- The bytes of data bits, bit 7 first; `none` where the last byte is not whole, as R16's count of bytes cannot be met
then (log 35). -/
def bytesOf : List Bool → Option (List Byte)
  | [] => some []
  | b7 :: b6 :: b5 :: b4 :: b3 :: b2 :: b1 :: b0 :: rest =>
    (bytesOf rest).map (fun l => BitVec.ofNat 8 (128 * b7.toNat + 64 * b6.toNat + 32 * b5.toNat + 16 * b4.toNat
      + 8 * b3.toNat + 4 * b2.toNat + 2 * b1.toNat + b0.toNat) :: l)
  | _ => none

/-- An ended frame is checked (R16): `none` where it is dropped. -/
def judgeEnded (x : List Bool × FrameEnd) : Option (FrameKind × Nat × List Byte) :=
  (bytesOf x.1).bind (fun received => judgeFrame received x.2)

/-! ### ADVERT bodies (R186) -/

/-- A link entry of an ADVERT, and of the own link set (R49). -/
structure LinkEntry where
  fromPort : Nat
  toNode : Nat
  toPort : Nat
  cost : Nat
  noise : Nat
  dispersion : Int
  used : SlotMap
  deriving DecidableEq, Repr

/-- An ADVERT as the TV takes it (section 2.3). -/
structure Advert where
  sequence : BitVec 16
  fresh : Bool
  withdraw : Bool
  transit : Bool
  profile : Nat
  entries : List LinkEntry
  deriving DecidableEq, Repr

/-- The 18 bytes of a link entry. -/
def LinkEntry.bytes (e : LinkEntry) : List Byte :=
  bigEndian 1 e.fromPort ++ bigEndian 2 e.toNode ++ bigEndian 1 e.toPort ++ bigEndian 2 e.cost
    ++ bigEndian 2 e.noise ++ signedBytes 2 e.dispersion ++ bigEndian 8 e.used.toNat

/-- A link entry read from its 18 bytes; ports are whole bytes, so 16 to 255 reach the checks of R30. -/
def readLinkEntry (l : List Byte) : LinkEntry :=
  { fromPort := field l 0 1, toNode := field l 1 2, toPort := field l 3 1, cost := field l 4 2,
    noise := field l 6 2, dispersion := signedField l 8, used := BitVec.ofNat 64 (field l 10 8) }

/-- `n` link entries, one after another. -/
def readLinkEntries : Nat → List Byte → List LinkEntry
  | 0, _ => []
  | n + 1, l => readLinkEntry (l.take 18) :: readLinkEntries n (l.drop 18)

/-- The flags of an ADVERT: bit 0 fresh-start, bit 1 withdraw, bit 2 transit. -/
def advertFlags (fresh withdraw transit : Bool) : Nat :=
  (if fresh then 1 else 0) + (if withdraw then 2 else 0) + (if transit then 4 else 0)

/-- An ADVERT body (R186): 12 bytes, then 18 for each entry. -/
def Advert.bytes (a : Advert) : List Byte :=
  bigEndian 2 a.sequence.toNat ++ bigEndian 2 (advertFlags a.fresh a.withdraw a.transit)
    ++ bigEndian 2 a.profile ++ bigEndian 2 a.entries.length ++ bigEndian 4 0
    ++ a.entries.flatMap LinkEntry.bytes

/-- An ADVERT body as the receiver reads it; `none` where R25 discards it whole. -/
def readAdvert (l : List Byte) : Option Advert :=
  let count := field l 6 2
  let flags := BitVec.ofNat 16 (field l 2 2)
  if 12 ≤ l.length ∧ count ≤ 16 ∧ l.length = 12 + 18 * count ∧ field l 4 2 ≤ 15 then
    some { sequence := BitVec.ofNat 16 (field l 0 2), fresh := flags.getLsbD 0, withdraw := flags.getLsbD 1,
           transit := flags.getLsbD 2, profile := field l 4 2, entries := readLinkEntries count (l.drop 12) }
  else none

/-! ### Hold bodies (R187) -/

/-- The body of an ANNOUNCE, OBJECT or COMMIT. -/
structure HoldBody where
  number : BitVec 8
  priority : Nat
  committed : Bool
  start : Nat
  width : Nat
  links : List LinkKey
  deriving DecidableEq, Repr

/-- The 3 bytes of a link key. -/
def LinkKey.bytes (k : LinkKey) : List Byte := bigEndian 2 k.node ++ bigEndian 1 k.port

/-- `n` link keys, one after another. -/
def readLinkKeys : Nat → List Byte → List LinkKey
  | 0, _ => []
  | n + 1, l => ⟨field l 0 2, field l 2 1⟩ :: readLinkKeys n (l.drop 3)

/-- A hold body of 7 + 3 × n bytes (R187). -/
def HoldBody.bytes (b : HoldBody) : List Byte :=
  [b.number] ++ bigEndian 1 b.priority ++ flagByte b.committed ++ bigEndian 1 b.start ++ bigEndian 1 b.width
    ++ bigEndian 2 b.links.length ++ b.links.flatMap LinkKey.bytes

/-- A link key that may stand in a hold or an exclusion: from-node 1 to 65534, from-port 0 to 15. -/
def LinkKey.valid (k : LinkKey) : Bool := validNode k.node && decide (k.port ≤ 15)

/-- A hold body as the receiver reads it; `none` where R104 discards it. -/
def readHoldBody (l : List Byte) : Option HoldBody :=
  let count := field l 5 2
  let links := readLinkKeys count (l.drop 7)
  let start := field l 3 1
  let width := field l 4 1
  if 7 ≤ l.length ∧ l.length = 7 + 3 * count ∧ 1 ≤ count ∧ count ≤ 16 ∧ 1 ≤ width ∧ width ≤ 8
      ∧ start + width ≤ 64 ∧ field l 1 1 ≤ 3 ∧ links.all LinkKey.valid ∧ links.Nodup then
    some { number := l.headD 0, priority := field l 1 1, committed := (BitVec.ofNat 8 (field l 2 1)).getLsbD 0,
           start := start, width := width, links := links }
  else none

/-! ### The trace word (R45) -/

/-- Nibble `i` of a trace word, nibble 0 in bits 3 to 0. -/
def nibble (w : BitVec 32) (i : Nat) : BitVec 4 := (w >>> (4 * i)).setWidth 4

/-- The far node and far port a trace word names; `none` where the word is invalid (R45). -/
def readTraceWord (w : BitVec 32) : Option (Nat × Nat) :=
  let node := (w >>> 16).toNat
  let check := nibble w 7 ^^^ nibble w 6 ^^^ nibble w 5 ^^^ nibble w 4 ^^^ nibble w 3 ^^^ nibble w 2 ^^^ nibble w 1
  if validNode node ∧ nibble w 2 = 0 ∧ nibble w 1 = 9 ∧ nibble w 0 = check then
    some (node, (nibble w 3).toNat)
  else none

/-! ### Request headers (R159, R188) -/

/-- The body lengths permitted for a request kind code; the subject is read for QUERY (0x60) alone. A code that is
no request kind permits none. -/
def permittedLengths (kind subject : Byte) : List Nat :=
  if kind = 0x10 then [5]
  else if kind = 0x11 then [16]
  else if kind = 0x12 then [10]
  else if kind = 0x13 then [0]
  else if kind = 0x14 then [0]
  else if kind = 0x20 then [16]
  else if kind = 0x21 then [5, 1]
  else if kind = 0x30 then [42]
  else if kind = 0x31 then [2]
  else if kind = 0x40 then [1]
  else if kind = 0x41 then [1]
  else if kind = 0x42 then [0]
  else if kind = 0x43 then [12]
  else if kind = 0x50 then [2]
  else if kind = 0x60 then
    (if subject = 0 then [3] else if subject = 1 then [4] else if subject = 2 then [1]
     else if subject = 3 then [1, 3] else [])
  else if kind = 0x70 then [0]
  else []

/-- A request header the CLP finds malformed (R159). FETCH (0x01) is no request and is never judged so. -/
def headerMalformed (kind subject : Byte) (length : BitVec 16) : Bool :=
  kind != 0x01 && !(permittedLengths kind subject).contains length.toNat

/-- The acceptance bytes (11_formats.md section 11.4). -/
def acceptedByte : Byte := 0x61

/-- The acceptance byte BUSY. -/
def busyByte : Byte := 0x62

/-- The acceptance byte MALFORMED. -/
def malformedByte : Byte := 0x63

/-- The empty marker a FETCH sends when no completion waits. -/
def emptyMarker : Byte := 0x7F

/-- The filler byte. -/
def fillerByte : Byte := 0x00

/-! ### Completions (R190) -/

/-- The request kind code, with the subject of a QUERY after it. -/
def RequestKind.bytes : RequestKind → List Byte
  | .identity => [0x10]
  | .timing => [0x11]
  | .profile => [0x12]
  | .join => [0x13]
  | .leave => [0x14]
  | .portSet => [0x20]
  | .portTrace => [0x21]
  | .path => [0x30]
  | .abort => [0x31]
  | .holdCommit => [0x40]
  | .holdRelease => [0x41]
  | .poll => [0x42]
  | .block => [0x43]
  | .trim => [0x50]
  | .query .node => [0x60, 0]
  | .query .link => [0x60, 1]
  | .query .port => [0x60, 2]
  | .query .ownHold => [0x60, 3]
  | .status => [0x70]

/-- The status codes. -/
def Status.code : Status → Byte
  | .ok => 0x00
  | .clamped => 0x01
  | .sequence => 0x02
  | .refused => 0x03
  | .notJoined => 0x04
  | .found => 0x05
  | .foundUnheld => 0x06
  | .noPath => 0x07
  | .stale => 0x08
  | .aborted => 0x09
  | .notFound => 0x0A
  | .tableFull => 0x0B
  | .traceInvalid => 0x0C
  | .mediumFailed => 0x0D
  | .duplicateId => 0x0E
  | .inProgress => 0x0F
  | .lost => 0x10
  | .released => 0x11
  | .failed => 0x12
  | .expired => 0x13
  | .superseded => 0x14

/-- The cause codes. -/
def Cause.code : Cause → Byte
  | .none => 0
  | .range => 1
  | .unknownEnd => 2
  | .muted => 3
  | .slotsFull => 4

/-- The station state codes. -/
def Station.code : Station → Byte
  | .unconfigured => 0
  | .identified => 1
  | .configured => 2
  | .listening => 3
  | .announcing => 4
  | .operating => 5
  | .leaving => 6
  | .muted => 7

/-- The status of a hold outcome: the one of the same name. -/
def HoldOutcome.status : HoldOutcome → Status
  | .lost => .lost
  | .expired => .expired
  | .released => .released
  | .superseded => .superseded
  | .failed => .failed

/-- Conditions or marks in one byte. -/
def Conditions.bytes (c : Conditions) : List Byte :=
  [BitVec.ofNat 8 ((if c.isolated then 1 else 0) + (if c.muted then 2 else 0) + (if c.viewIncomplete then 4 else 0)
    + (if c.overflow then 8 else 0))]

/-- Trace state, far node and far port; the latter two 0 where absent. -/
def Trace.bytes : Trace → List Byte
  | .dark => [0, 0, 0, 0]
  | .heard node port => [1] ++ bigEndian 2 node ++ bigEndian 1 port
  | .looped => [2, 0, 0, 0]

/-- The adjacency codes, 0 for absent. -/
def adjacencyByte : Option Adjacency → List Byte
  | none => [0]
  | some .verified => [1]
  | some .mismatch => [2]
  | some .unconfirmed => [3]

/-- The five values PORT SET writes. -/
def PortRecord.valueBytes (v : PortRecord) : List Byte :=
  flagByte v.enabled ++ bigEndian 2 v.cost ++ bigEndian 2 v.noise ++ signedBytes 2 v.dispersion
    ++ bigEndian 8 v.used.toNat

/-- The LIVE substate codes. -/
def Substate.code : Substate → Byte
  | .pending _ => 0
  | .announced _ _ => 1
  | .held => 2
  | .committing _ => 3
  | .committed => 4

/-- The commit request tag that waits (R90). -/
def Substate.commitTag : Substate → Option Tag
  | .pending c => c
  | .announced _ c => c
  | .held => none
  | .committing t => some t
  | .committed => none

/-- The hold form's items of a slot (R116): state, substate, hold number, creating tag, commit request waiting and
outcome. R190 leaves open what marks the substate absent in CLOSING and ENDED, and the outcome in LIVE: each is a bare 0
without a presence byte, and the slot state before it tells that it is absent (log 16, DESIGN CHOICE). -/
def Slot.bytes : Slot → List Byte
  | .free => [0, 0, 0, 0, 0, 0, 0]
  | .live sub number tag =>
    [1, sub.code, number] ++ bigEndian 2 tag.toNat ++ flagByte sub.commitTag.isSome ++ [0]
  | .closing number tag outcome _ => [2, 0, number] ++ bigEndian 2 tag.toNat ++ [0, outcome.status.code]
  | .ended number tag outcome => [3, 0, number] ++ bigEndian 2 tag.toNat ++ [0, outcome.status.code]

/-- The hold form's items of the record of a LIVE slot (R116): priority, flags, window, link list, commit-requested
flag, and contest timer or lifetime remaining behind a presence byte. R116 names the item "flags" without its layout:
two flag bytes are sent, established and then committed (log 16, DESIGN CHOICE). -/
def liveHoldBytes (slot : Slot) (record : Hold) (timerMs : Option Nat) : List Byte :=
  let requested := match slot with
    | .live sub _ _ => sub.commitTag.isSome
    | _ => false
  bigEndian 1 record.priority ++ flagByte record.established ++ flagByte record.committed
    ++ bigEndian 1 record.start ++ bigEndian 1 record.width ++ bigEndian 1 record.links.length
    ++ record.links.flatMap LinkKey.bytes ++ flagByte requested ++ flagByte timerMs.isSome
    ++ bigEndian 4 (timerMs.getD 0)

/-- The flags byte of a path completion (R190). -/
def PathFlags.bytes (f : PathFlags) : List Byte :=
  [BitVec.ofNat 8 ((if f.pruned then 1 else 0) + (if f.moved then 2 else 0) + (if f.viewIncomplete then 4 else 0)
    + (if f.isolated then 8 else 0) + (if f.overflow then 16 else 0) + (if f.created then 32 else 0))]

/-- The path completion's table from byte 2 on (R190). -/
def PathReport.bytes (r : PathReport) : List Byte :=
  [r.holdNumber] ++ bigEndian 1 r.window ++ bigEndian 1 r.width ++ bigEndian 3 r.cost ++ bigEndian 3 r.noise
    ++ signedBytes 3 r.dispersion ++ bigEndian 1 r.hops ++ bigEndian 2 r.margin ++ signedBytes 3 r.headroom
    ++ r.path.flatMap (fun x => x.1.bytes ++ bigEndian 2 x.2)

/-- The items of a STATUS completion in a joined state (R167, R190). -/
def StatusReport.bytes (v : StatusReport) : List Byte :=
  [v.station.code] ++ v.conditions.bytes ++ v.marks.bytes ++ signedBytes 1 v.debt ++ bigEndian 3 v.budget
    ++ bigEndian 1 v.nodes ++ bigEndian 2 v.links ++ bigEndian 1 v.live ++ bigEndian 1 v.closing
    ++ bigEndian 1 v.ended ++ bigEndian 1 v.peerHolds ++ bigEndian 1 v.blocks ++ bigEndian 1 v.queue
    ++ bigEndian 1 v.completions ++ bigEndian 1 v.reservations ++ bigEndian 4 v.counter.toNat

/-- The item bytes of a completion (R190). -/
def Items.bytes : Items → List Byte
  | .none => []
  | .identity v =>
    bigEndian 2 v.nodeId ++ bigEndian 1 v.profile ++ flagByte v.transit ++ bigEndian 1 v.portCount
  | .timing v =>
    bigEndian 2 v.ri ++ bigEndian 2 v.joinListen ++ bigEndian 2 v.watch ++ bigEndian 2 v.contest
      ++ bigEndian 2 v.hold ++ bigEndian 2 v.commit ++ bigEndian 2 v.budget ++ bigEndian 2 v.ifg
  | .profile index v =>
    bigEndian 1 index ++ bigEndian 2 v.scale ++ bigEndian 2 v.pass ++ bigEndian 2 v.add ++ bigEndian 2 v.drop
      ++ signedBytes 1 v.noiseTrim ++ signedBytes 1 v.penaltyTrim
  | .port number v => bigEndian 1 number ++ v.valueBytes
  | .trace number v => bigEndian 1 number ++ v.bytes
  | .portQuery number v adjacency ownLink =>
    bigEndian 1 number ++ v.valueBytes ++ v.trace.bytes ++ adjacencyByte adjacency ++ flagByte ownLink.isSome
      ++ flagByte (ownLink.getD false)
  | .trim index noiseTrim penaltyTrim factor pass add drop =>
    bigEndian 1 index ++ signedBytes 1 noiseTrim ++ signedBytes 1 penaltyTrim ++ bigEndian 2 factor
      ++ bigEndian 2 pass ++ bigEndian 2 add ++ bigEndian 2 drop
  | .block key mask => key.bytes ++ bigEndian 8 mask.toNat
  | .holdNumber number => [number]
  | .node v links verified =>
    bigEndian 2 v.id ++ bigEndian 1 v.profile ++ flagByte v.transit ++ bigEndian 2 v.sequence.toNat
      ++ bigEndian 1 v.age ++ flagByte v.own ++ bigEndian 1 v.missing ++ bigEndian 1 links ++ bigEndian 1 verified
  | .link v =>
    v.key.bytes ++ bigEndian 2 v.toNode ++ bigEndian 1 v.toPort ++ bigEndian 2 v.cost ++ bigEndian 2 v.noise
      ++ signedBytes 2 v.dispersion ++ bigEndian 8 v.used.toNat ++ flagByte v.verified
  | .ownHold slot v record timerMs =>
    bigEndian 1 slot ++ v.bytes ++ (match record with
      | Option.none => []
      | some r => liveHoldBytes v r timerMs)
  | .linkHolds mask held count => bigEndian 8 mask.toNat ++ bigEndian 8 held.toNat ++ bigEndian 1 count
  | .ended list =>
    bigEndian 1 list.length ++ list.flatMap (fun x => [x.1, x.2.1.status.code] ++ bigEndian 2 x.2.2.toNat)
  | .status v => v.bytes
  | .stationOnly station conditions marks => [station.code] ++ conditions.bytes ++ marks.bytes
  | .result flags passes report => flags.bytes ++ bigEndian 1 passes ++ report.bytes
  | .noPath flags passes => flags.bytes ++ bigEndian 1 passes
  | .aborted passes => bigEndian 1 passes

/-- A whole completion as FETCH sends it (R190). -/
def Completion.bytes (c : Completion) : List Byte :=
  [0x7E] ++ c.kind.bytes ++ bigEndian 2 c.tag.toNat ++ [c.status.code, c.cause.code] ++ flagByte c.clamped
    ++ bigEndian 2 c.items.bytes.length ++ c.items.bytes

end Sys2Proof.Machine
end

