-- ==== Sys2Proof/Decode.lean ====
section
/-! DEFINITION. Reading commands from bits: the opcode table gives no row any bits, so no table word spells a command
(log 30); and the request bytes of the control link (R159, R188, R189), read field by field from
spec/11_formats.md sections 11.4 and 11.5. -/

namespace Sys2Proof

open Machine

/-- The command an opcode-table word spells: the table gives bits to no row (log 30). -/
def decodeTableWord (_nbits _w : Nat) : Option Instr := none

/-- The byte at an offset. -/
def byteAt (l : List Byte) (i : Nat) : Byte := l.getD i 0

/-- The 16-bit field at an offset. -/
def wordAt (l : List Byte) (i : Nat) : BitVec 16 := BitVec.ofNat 16 (field l i 2)

/-- The PATH body's fields (section 11.5). -/
def readPathBody (b : List Byte) : PathBody :=
  { source := wordAt b 0, destination := wordAt b 2, width := byteAt b 4, fitPolicy := byteAt b 5, lo := byteAt b 6,
    hi := byteAt b 7, budget := BitVec.ofNat 24 (field b 8 3), dmin := BitVec.ofNat 24 (field b 11 3),
    dmax := BitVec.ofNat 24 (field b 14 3), maxHops := byteAt b 17, priority := byteAt b 18, options := byteAt b 19,
    nodeMask := byteAt b 20, nodes := #v[wordAt b 21, wordAt b 23, wordAt b 25, wordAt b 27], keyMask := byteAt b 29,
    keys := #v[(wordAt b 30, byteAt b 32), (wordAt b 33, byteAt b 35), (wordAt b 36, byteAt b 38),
      (wordAt b 39, byteAt b 41)] }

/-- The command of a QUERY body (R188): where a subject permits two lengths, the length selects the form. -/
def readQuery (subject : Byte) (tag : Tag) (b : List Byte) : Instr :=
  if subject = 0 then .queryNode tag (wordAt b 0) (byteAt b 2)
  else if subject = 1 then .queryLink tag (wordAt b 0) (byteAt b 2) (byteAt b 3)
  else if subject = 2 then .queryPort tag (byteAt b 0)
  else if b.length = 1 then .queryOwnHold tag (byteAt b 0)
  else .queryOwnHoldLink tag (wordAt b 0) (byteAt b 2)

/-- The command of a request body of a permitted length, for a kind code that is a request kind (R188). -/
def readBody (kind subject : Byte) (tag : Tag) (b : List Byte) : Option Instr :=
  if kind = 0x10 then some (.identity tag (wordAt b 0) (byteAt b 2) (byteAt b 3) (byteAt b 4))
  else if kind = 0x11 then
    some (.timing tag (wordAt b 0) (wordAt b 2) (wordAt b 4) (wordAt b 6) (wordAt b 8) (wordAt b 10) (wordAt b 12)
      (wordAt b 14))
  else if kind = 0x12 then some (.profile tag (wordAt b 0) (wordAt b 2) (wordAt b 4) (wordAt b 6) (wordAt b 8))
  else if kind = 0x13 then some (.join tag)
  else if kind = 0x14 then some (.leave tag)
  else if kind = 0x20 then
    some (.portSet tag (byteAt b 0) (byteAt b 1) (wordAt b 2) (wordAt b 4) (wordAt b 6) (BitVec.ofNat 64 (field b 8 8)))
  else if kind = 0x21 then
    some (if b.length = 5 then .portTrace tag (byteAt b 0) (BitVec.ofNat 32 (field b 1 4))
      else .portTraceLoss tag (byteAt b 0))
  else if kind = 0x30 then some (.path tag (readPathBody b))
  else if kind = 0x31 then some (.abort tag (wordAt b 0))
  else if kind = 0x40 then some (.holdCommit tag (byteAt b 0))
  else if kind = 0x41 then some (.holdRelease tag (byteAt b 0))
  else if kind = 0x42 then some (.poll tag)
  else if kind = 0x43 then
    some (if byteAt b 3 = 1 then .blockClear tag (wordAt b 0) (byteAt b 2) (byteAt b 3) (BitVec.ofNat 64 (field b 4 8))
      else .blockSet tag (wordAt b 0) (byteAt b 2) (byteAt b 3) (BitVec.ofNat 64 (field b 4 8)))
  else if kind = 0x50 then some (.trim tag (byteAt b 0) (byteAt b 1))
  else if kind = 0x60 then some (readQuery subject tag b)
  else if kind = 0x70 then some (.status tag)
  else none

/-- The command of a request transaction's bytes (R159): the header is the kind, for QUERY its subject, the tag and
the body length; a malformed header gives MALFORMED whatever follows, and a body cut short gives no command. -/
def readRequest (bytes : List Byte) : Option Instr :=
  let kind := byteAt bytes 0
  let h := if kind = 0x60 then 1 else 0
  let subject := byteAt bytes 1
  let length := wordAt bytes (3 + h)
  let body := (bytes.drop (5 + h)).take length.toNat
  if bytes.length < 5 + h ∨ kind = 0x01 then none
  else if headerMalformed kind subject length then some (.malformed kind subject length)
  else if body.length < length.toNat then none
  else readBody kind subject (wordAt bytes (1 + h)) body

end Sys2Proof
end

