-- ==== Sys2Proof/Config.lean ====
section
/-! DEFINITION. The sizes the spec fixes for the part's tables, and the free values: what the spec leaves open
and no proof may know. -/

namespace Sys2Proof.Config

/-- Places of the node table (R21). -/
def nodePlaces : Nat := 64

/-- Link records that peers together may occupy (R22: 512 less the sixteen kept for the own link set). -/
def peerLinkPlaces : Nat := 496

/-- Entries of the block table (R86). -/
def blockPlaces : Nat := 32

/-- Peer records of the hold table (R88). -/
def peerHoldPlaces : Nat := 40

/-- Requests the path queue holds (R117). -/
def pathPlaces : Nat := 4

/-- Completion-queue entries plus reservations never exceed this (R162). -/
def completionPlaces : Nat := 16

/-- Labels the frontier holds (R125). -/
def frontierPlaces : Nat := 32

/-- Entries of the settled tree (R128). -/
def treePlaces : Nat := 64

/-- FREE VALUE (log 3, DESIGN CHOICE). Several events of the part itself may fall in one bit time, and the spec
says "either order is possible" of events taken together. They are queued by rising `tieKey now index`. -/
opaque tieKey : Nat → Nat → Nat

/-- FREE VALUE (log 6, DESIGN CHOICE). Whether a timer that stands within a millisecond is reported with that
millisecond counted; the argument is the timer in bit times. A timer that stands at a whole millisecond never
asks it. -/
opaque roundMs : Nat → Bool

end Sys2Proof.Config
end

