-- ==== Sys2Proof/Machine/Flags.lean ====
section
/-! DEFINITION. The four conditions, their change marks (R166), and the attention output (R168). -/

namespace Sys2Proof.Machine

/-- The conditions as they stand. -/
def State.conditions (s : State) : Conditions :=
  ⟨s.lac.isolated, s.sc.muted, s.tv.viewIncomplete, s.hu.overflow⟩

/-- ISOLATED becomes `b`; a change is marked at the CLP (R18, R19, R166). -/
def State.setIsolated (b : Bool) (s : State) : State :=
  if s.lac.isolated = b then s
  else { s with lac.isolated := b, clp.marks.isolated := true }

/-- MUTED becomes `b`; a change is marked at the CLP (R166, R170). -/
def State.setMuted (b : Bool) (s : State) : State :=
  if s.sc.muted = b then s
  else { s with sc.muted := b, clp.marks.muted := true }

/-- VIEW_INCOMPLETE becomes `b`; a change is marked at the CLP (R36). -/
def State.setViewIncomplete (b : Bool) (s : State) : State :=
  if s.tv.viewIncomplete = b then s
  else { s with tv.viewIncomplete := b, clp.marks.viewIncomplete := true }

/-- HOLDS_OVERFLOW becomes `b`; a change is marked at the CLP (R107). -/
def State.setOverflow (b : Bool) (s : State) : State :=
  if s.hu.overflow = b then s
  else { s with hu.overflow := b, clp.marks.overflow := true }

/-- Whether any mark is set. -/
def Conditions.any (c : Conditions) : Bool := c.isolated || c.muted || c.viewIncomplete || c.overflow

/-- The slot waits for POLL (R90). -/
def Slot.isEnded : Slot → Bool
  | .ended _ _ _ => true
  | _ => false

/-- The attention output (R168). -/
def State.attention (s : State) : Bool :=
  !s.clp.completions.isEmpty || s.hu.slots.toList.any Slot.isEnded || s.clp.marks.any

end Sys2Proof.Machine
end

