-- ==== Sys2Proof/Machine/Ops.lean ====
section
/-! DEFINITION. The operations every block shares: reading the configuration, taking an event, posting a completion,
counting a view change, deciding a request, and the passing of time. -/

namespace Sys2Proof.Machine

/-! ### Reading the configuration and the small tables -/

/-- The states from LISTENING on: LISTENING, ANNOUNCING, OPERATING, LEAVING and MUTED. -/
def Station.joined : Station → Bool
  | .listening => true
  | .announcing => true
  | .operating => true
  | .leaving => true
  | .muted => true
  | _ => false

/-- The own node id; 0 before IDENTITY, where nothing reads it (log 26). -/
def State.ownId (s : State) : Nat := (s.sc.identity.map Identity.nodeId).getD 0

/-- The port count; 0 before IDENTITY (R54). -/
def State.portCount (s : State) : Nat := (s.sc.identity.map Identity.portCount).getD 0

/-- The timing values; zeros before TIMING, where nothing reads them (log 26). -/
def State.timing (s : State) : Timing := s.sc.timing.getD ⟨0, 0, 0, 0, 0, 0, 0, 0⟩

/-- Own hold slot `i`. -/
def State.slot (s : State) (i : Fin 8) : Slot := s.hu.slots[i]

/-- Own hold slot `i` becomes `x`. -/
def State.setSlot (i : Fin 8) (x : Slot) (s : State) : State := { s with hu.slots := s.hu.slots.set i x }

/-- The own hold slots in ascending order. -/
def allSlots : List (Fin 8) := [0, 1, 2, 3, 4, 5, 6, 7]

/-- The places of the due list in ascending order. -/
def allPlaces : List (Fin 10) := [0, 1, 2, 3, 4, 5, 6, 7, 8, 9]

/-- The hold number of a slot, in every state but FREE. -/
def Slot.number : Slot → Option (BitVec 8)
  | .free => none
  | .live _ n _ => some n
  | .closing n _ _ _ => some n
  | .ended n _ _ => some n

/-- The slot, not FREE, that holds a hold number. -/
def State.findSlot (s : State) (n : BitVec 8) : Option (Fin 8) :=
  allSlots.find? (fun i => (s.slot i).number == some n)

/-- The profile under an index (0 to 15). -/
def profileAt (profiles : Vector Profile 16) (i : Nat) : Profile := profiles.getD i Profile.atReset

/-! ### Events -/

/-- The common frame of every event: it is taken whole; while the reset line is held nothing is taken (R20, R183,
log 21); each event taken has a number of its own, which due marks use (log 11). -/
def State.event (s : State) (f : State → State) : State :=
  if s.resetHeld then s else f { s with events := s.events + 1 }

/-- `n` changes applied to the view (R37). -/
def State.count (n : Nat) (s : State) : State := { s with tv.counter := s.tv.counter + BitVec.ofNat 32 n }

/-! ### Completions -/

/-- A completion with no items, cause or note. -/
def Completion.plain (kind : RequestKind) (tag : Tag) (status : Status) : Completion :=
  ⟨kind, tag, status, .none, false, .none⟩

/-- A completion with items alone. -/
def Completion.carrying (kind : RequestKind) (tag : Tag) (status : Status) (items : Items) : Completion :=
  ⟨kind, tag, status, .none, false, items⟩

/-- REFUSED with cause RANGE. -/
def Completion.range (kind : RequestKind) (tag : Tag) : Completion := ⟨kind, tag, .refused, .range, false, .none⟩

/-- An owner posts a completion: one entry more, one reservation less (R162). -/
def State.post (c : Completion) (s : State) : State :=
  { s with clp.completions := s.clp.completions ++ [c], clp.reservations := s.clp.reservations - 1 }

/-! ### Transactions -/

/-- The transaction on the port is decided: from here on the part sends `sent` and then filler (R158 to R161). -/
def State.answer (sent : List Byte) (s : State) : State :=
  { s with clp.select := true, clp.port := .answering sent }

/-- A transaction on the port (R158, R169): it begins with the assertion of select. While the reset line is held the
part takes nothing (log 21); until select is released after a transaction, or after a reset, it ignores the bytes the
host sends (log 8). -/
def State.transact (s : State) (f : State → State) : State :=
  if s.resetHeld then { s with clp.select := true }
  else if s.clp.port = .idle then f { s with events := s.events + 1 }
  else s

/-- The byte on the send output in byte time `n`, counted from the decision of the transaction on the port (R158, R159,
R161, R169): the answer's bytes, and the filler byte before them, after them, and while no answer goes out. -/
def State.sendOutput (s : State) (n : Int) : Byte :=
  match s.clp.port with
  | .answering sent => if n < 0 then fillerByte else sent.getD n.toNat fillerByte
  | _ => fillerByte

/-- The completion queue has no place for another reservation (R160). -/
def State.queueFull (s : State) : Bool :=
  decide (Config.completionPlaces ≤ s.clp.completions.length + s.clp.reservations)

/-- The decision point of a well-formed request (R160): BUSY without trace, or ACCEPTED with a reservation and the
owner's work in the same event. -/
def State.takeRequest (busy : Bool) (owner : State → State) (s : State) : State :=
  if busy then s.answer [busyByte]
  else owner ({ s with clp.reservations := s.clp.reservations + 1 }.answer [acceptedByte])

/-- A request other than PATH. -/
def State.request (s : State) (owner : State → State) : State :=
  s.transact (fun s => s.takeRequest s.queueFull owner)

/-! ### Time -/

/-- Bit times in a millisecond. -/
def bitsPerMs : Nat := 1000

/-- Bit times in a second. -/
def bitsPerSecond : Nat := 1000000

/-- The refresh interval in bit times. -/
def State.riBits (s : State) : Nat := s.timing.ri * bitsPerSecond

/-- The watch time in bit times. -/
def State.watchBits (s : State) : Nat := s.timing.watch * bitsPerMs

/-- The contest window in bit times. -/
def State.contestBits (s : State) : Nat := s.timing.contest * bitsPerMs

/-- The hold lifetime in bit times. -/
def State.holdBits (s : State) : Nat := s.timing.hold * bitsPerSecond

/-- The commit lifetime in bit times. -/
def State.commitBits (s : State) : Nat := s.timing.commit * bitsPerSecond

/-- The milliseconds reported for a timer (log 6: within a millisecond the direction of rounding is free). -/
def reportMs (bits : Nat) : Nat :=
  if bits % bitsPerMs = 0 then bits / bitsPerMs
  else if Config.roundMs bits then bits / bitsPerMs + 1 else bits / bitsPerMs

/-- The watch after `dt`; it counts whether or not the line is active (R18). -/
def Watch.after (dt : Nat) : Watch → Watch
  | .off => .off
  | .running e => .running (e + dt)
  | .expired => .expired

/-- A slot after `dt`: the contest timer counts up in ANNOUNCED (R90; log 31, DESIGN CHOICE). -/
def Slot.after (dt : Nat) : Slot → Slot
  | .live (.announced e c) n t => .live (.announced (e + dt) c) n t
  | x => x

/-- The slot is LIVE in COMMITTING with this hold number, which suspends its lifetime (R90). -/
def Slot.suspends (n : BitVec 8) : Slot → Bool
  | .live (.committing _) m _ => m == n
  | _ => false

/-- The record's lifetime is suspended (R90, R98). -/
def State.suspended (s : State) (h : Hold) : Bool := h.own && s.hu.slots.toList.any (Slot.suspends h.number)

/-- A record after `dt` of a running lifetime. -/
def Hold.after (dt : Nat) (h : Hold) : Hold := { h with lifetime := h.lifetime.map (· - dt) }

/-- `dt` bit times pass: the clock, the idle count while the line is idle (R9), the silence watch (R18), the RI timer
(R173), the contest timers (R93) and the running lifetimes (R88) move on (log 1). -/
def State.elapse (dt : Nat) (s : State) : State :=
  { s with
    now := s.now + dt
    lac.idle := if s.lac.activity then s.lac.idle else s.lac.idle + dt
    lac.watch := s.lac.watch.after dt
    sc.riTimer := s.sc.riTimer.map (· + dt)
    hu.slots := s.hu.slots.map (Slot.after dt)
    hu.holds := s.hu.holds.map (fun h => if s.suspended h then h else h.after dt) }

end Sys2Proof.Machine
end

