-- ==== Sys2Proof/Machine/DomainLine.lean ====
section
/-! DEFINITION. The Line Access Controller (spec/01_the_domain_line.md): the due list, the airtime budget, starting a
frame, the settling of a place at the end of an attempt, backoff, and the discarding of entries. What the owners do
with an outcome stands in Outcomes.lean. -/

namespace Sys2Proof.Machine

/-! ### Places -/

/-- The place of own hold slot `i`. -/
def holdPlace (i : Fin 8) : Fin 10 := ⟨i.val, by omega⟩

/-- The place of the station's ADVERT. -/
def advertPlace : Fin 10 := 8

/-- The place of the SOLICIT. -/
def solicitPlace : Fin 10 := 9

/-- The own hold slot that owns a place, for places 0 to 7. -/
def slotOfPlace (p : Fin 10) : Option (Fin 8) := if h : p.val < 8 then some ⟨p.val, h⟩ else none

/-- The entry in a place. -/
def State.entry (s : State) (p : Fin 10) : Option Entry := s.lac.due[p]

/-- Place `p` holds `e` from now on. -/
def State.setEntry (p : Fin 10) (e : Option Entry) (s : State) : State := { s with lac.due := s.lac.due.set p e }

/-- An attempt of the entry in place `p` is on the line. -/
def State.onLine (s : State) (p : Fin 10) : Bool :=
  match s.lac.attempt with
  | some a => a.place == p
  | none => false

/-! ### Making a kind due (R3, R5, R6) -/

/-- A new entry: the due mark of this event, no attempt, no backoff, no follow-on, no withdrawal mark (R3). -/
def State.newEntry (s : State) (k : FrameKind) (c : Fin 3) : Entry :=
  { kind := k, cls := c, dueMark := s.events, attempts := 0, backoffEnd := none, followOn := none, withdrawn := false }

/-- The rows of R5's table in which the entry stays as it is: `current` is the kind due, `new` the new kind. A withdraw
ADVERT is never given up for an ADVERT (log 14: not a row of the table; the ADS makes none due after LEAVE, R68). -/
def staysDue (current new : FrameKind) : Bool :=
  match current, new with
  | .commit, .object => true
  | .release, .object => true
  | .release, .commit => true
  | .withdraw, .advert => true
  | _, _ => false

/-- A new kind meets an entry that is not on the line (R5). A change of kind starts the attempts afresh and keeps the
due mark; the same kind keeps the more urgent class (R58). -/
def Entry.become (e : Entry) (k : FrameKind) (c : Fin 3) : Entry :=
  if staysDue e.kind k then e
  else if e.kind = k then { e with cls := min e.cls c }
  else { e with kind := k, cls := c, attempts := 0, backoffEnd := none }

/-- The follow-on after a new kind meets the one recorded (R6, R58). -/
def mergeFollowOn (recorded : Option (FrameKind × Fin 3)) (k : FrameKind) (c : Fin 3) : FrameKind × Fin 3 :=
  match recorded with
  | none => (k, c)
  | some (k', c') =>
    if staysDue k' k then (k', c')
    else if k' = k then (k, min c' c)
    else (k, c)

/-- A new kind meets an entry whose attempt is on the line (R6): it is recorded as the follow-on, which clears the
withdrawal mark, unless the kind on the line stays due. -/
def Entry.follow (e : Entry) (k : FrameKind) (c : Fin 3) : Entry :=
  if staysDue e.kind k then e
  else { e with followOn := some (mergeFollowOn e.followOn k c), withdrawn := false }

/-- An owner makes a kind due in a place (R3, R5, R6). While MUTED no entry is created (R15). -/
def State.makeDue (p : Fin 10) (k : FrameKind) (c : Fin 3) (s : State) : State :=
  if s.sc.station = .muted then s
  else
    match s.entry p with
    | none => s.setEntry p (some (s.newEntry k c))
    | some e => s.setEntry p (some (if s.onLine p then e.follow k c else e.become k c))

/-- An owner withdraws an entry (R5, R6): removed at once, or marked while its attempt is on the line. -/
def State.withdrawEntry (p : Fin 10) (s : State) : State :=
  match s.entry p with
  | none => s
  | some e =>
    if s.onLine p then s.setEntry p (some { e with withdrawn := true, followOn := none })
    else s.setEntry p none

/-- The ADS raises its entry to class 0, and its follow-on too (R58). -/
def State.raiseAdvert (s : State) : State :=
  match s.entry advertPlace with
  | none => s
  | some e => s.setEntry advertPlace (some { e with cls := 0, followOn := e.followOn.map (fun f => (f.1, 0)) })

/-! ### Bodies (R10, R67, R91) -/

/-- The own node record. -/
def State.ownRecord (s : State) : Option NodeRecord := Table.lookup NodeRecord.id s.ownId s.tv.nodes

/-- The links of one node's link set, in ascending from-port order. -/
def linkSet (node : Nat) (links : List LinkRecord) : List LinkRecord := links.filter (fun l => l.key.node == node)

/-- A link record as an ADVERT entry. -/
def LinkRecord.entry (l : LinkRecord) : LinkEntry :=
  ⟨l.key.port, l.toNode, l.toPort, l.cost, l.noise, l.dispersion, l.used⟩

/-- The body of an ADVERT attempt (R67). -/
def State.advertBody (withdraw : Bool) (s : State) : Option (List Byte) :=
  s.ownRecord.map (fun r => Advert.bytes
    { sequence := s.ads.sequence, fresh := decide (0 < s.ads.freshCount) && !withdraw, withdraw := withdraw,
      transit := r.transit, profile := r.profile,
      entries := if withdraw then [] else (linkSet s.ownId s.tv.links).map LinkRecord.entry })

/-- The own hold record with a number. -/
def State.ownHold (s : State) (n : BitVec 8) : Option Hold := Table.lookup Hold.code (holdCode s.ownId n) s.hu.holds

/-- The body of a hold frame from slot `i` (R91, R187). -/
def State.holdFrameBody (i : Fin 8) (k : FrameKind) (s : State) : Option (List Byte) :=
  match (s.slot i).number with
  | none => none
  | some n =>
    if k = .release then some [n]
    else (s.ownHold n).map (fun r => HoldBody.bytes
      ⟨r.number, r.priority, decide (k = .object) && r.committed, r.start, r.width, r.links⟩)

/-- The body the owner of a place supplies for a kind at this moment; `none` where the owner holds no record to
supply it from, which the owners' rules never let happen (log 19). -/
def State.frameBody (p : Fin 10) (k : FrameKind) (s : State) : Option (List Byte) :=
  match slotOfPlace p with
  | some i => s.holdFrameBody i k
  | none =>
    match k with
    | .advert => s.advertBody false
    | .withdraw => s.advertBody true
    | .solicit => some []
    | _ => none

/-! ### Starting (R8, R9, R10) -/

/-- The deferral of a class (R9). -/
def State.deferral (s : State) (c : Fin 3) : Nat :=
  s.timing.ifg + (if c = 0 then 0 else if c = 1 then 8 else 24)

/-- The full budget, B × 16 bytes (R7). -/
def State.fullBudget (s : State) : Nat := s.timing.budget * 16

/-- The station state permits the entry (R8 condition 1). -/
def State.statePermits (s : State) (p : Fin 10) : Bool :=
  match s.sc.station with
  | .listening => p == solicitPlace
  | .announcing => true
  | .operating => true
  | .leaving => true
  | _ => false

/-- The idle time that counts for an entry (R9): since the last fall of receive activity, and not before the end of
its backoff. -/
def State.idleFor (s : State) (e : Entry) : Nat :=
  match e.backoffEnd with
  | none => s.lac.idle
  | some t => min s.lac.idle (s.now - t)

/-- Backoff over and deferral met (R8 conditions 3 and 4). -/
def State.deferralMet (s : State) (e : Entry) : Bool :=
  (match e.backoffEnd with
    | none => true
    | some t => decide (t ≤ s.now))
  && !s.lac.activity && decide (s.deferral e.cls ≤ s.idleFor e)

/-- The budget covers a frame (R8 condition 5). -/
def State.budgetCovers (s : State) (c : Fin 3) (length : Nat) : Bool :=
  decide (c = 0) || decide (length ≤ s.lac.budget)
    || (decide (s.fullBudget < length) && decide (s.lac.budget = s.fullBudget))

/-- The bit times after the rise of transmit enable within which receive activity must rise (R11). -/
def echoLimit : Nat := 12

/-- Where the last run was broken off: the bit times of its frame that went out before the abort delimiter. -/
def State.brokenOff (s : State) : Option Nat := s.lac.sending.bind Transmission.cut

/-- Where the frame of the attempt on the line breaks off for want of its echo (R11): where it was broken off, or at the
echo limit once no receive activity has risen within it. -/
def State.echoLoss (a : Attempt) (s : State) : Option Nat :=
  match s.brokenOff with
  | some n => some n
  | none => if !s.lac.echo && decide (a.startedAt + echoLimit ≤ s.now) then some echoLimit else none

/-- The last run as it goes out: from the echo limit on, the abort delimiter in place of the rest (R11). -/
def State.run (s : State) : Option Transmission :=
  match s.lac.attempt with
  | none => s.lac.sending
  | some a => s.lac.sending.map (fun x => { x with cut := s.echoLoss a })

/-- The bit on transmit data in bit time `t` (R1, R10): that of the last run, while it lasts. -/
def State.lineOut (s : State) (t : Nat) : Option LineBit :=
  s.run.bind (fun x => if t < x.startedAt then none else x.bits[t - x.startedAt]?)

/-- The bit on transmit data in this bit time. -/
def State.transmitData (s : State) : Option LineBit := s.lineOut s.now

/-- Transmit enable (R1): high while a run, its abort delimiter included, is on the line. -/
def State.transmitEnable (s : State) : Bool := s.transmitData.isSome

/-- The line is free for a start (R8 condition 2): no attempt is on it, nor the abort delimiter of a cut one. -/
def State.lineFree (s : State) : Bool := s.lac.attempt.isNone && !s.transmitEnable

/-- The entry in place `p` meets the five conditions of R8. -/
def State.mayStart (s : State) (p : Fin 10) : Bool :=
  match s.entry p with
  | none => false
  | some e =>
    s.statePermits p && s.lineFree && s.deferralMet e &&
      (match s.frameBody p e.kind with
        | none => false
        | some body => s.budgetCovers e.cls (fullLength body.length))

/-- Entry order (R4): class, then due mark; places are compared in ascending order, so the lower place stays first. -/
def Entry.before (a b : Entry) : Bool :=
  decide (a.cls < b.cls) || (decide (a.cls = b.cls) && decide (a.dueMark < b.dueMark))

/-- The first entry in due-list order that may start (R4, R8). -/
def State.firstStartable (s : State) : Option (Fin 10) :=
  allPlaces.foldl (fun best p =>
    if s.mayStart p then
      match best with
      | none => some p
      | some q =>
        match s.entry p, s.entry q with
        | some e, some f => if e.before f then some p else some q
        | _, _ => some q
    else best) none

/-- The attempt of the entry in place `p` starts (R10): its owner supplies the body, and the content mark of an ADVERT
other than the withdraw moves from WAITING to CARRIED (R60). -/
def State.startAttempt (p : Fin 10) (s : State) : State :=
  match s.entry p with
  | none => s
  | some e =>
    match s.frameBody p e.kind with
    | none => s
    | some body =>
      { s with
        lac.attempt := some
          { place := p, kind := e.kind, frame := frameBytes e.kind s.ownId body, startedAt := s.now }
        lac.sending := some ⟨s.now, frameBytes e.kind s.ownId body, none⟩
        ads.mark := if e.kind = .advert ∧ s.ads.mark = .waiting then .carried else s.ads.mark }

/-! ### The end of an attempt (R6, R7, R13) -/

/-- The bytes of an attempt whose last delimiter bit ends `bits` after the rise of transmit enable (R7). -/
def bytesSent (bits : Nat) : Nat := (bits + 7) / 8

/-- The full length of the frame of an attempt, in bit times. -/
def Attempt.bits (a : Attempt) : Nat := 8 * (a.frame.length + 4)

/-- The line is free again and the bytes are charged, the budget saturating at 0 (R7). -/
def State.closeAttempt (bits : Nat) (s : State) : State :=
  { s with lac.attempt := none, lac.budget := s.lac.budget - bytesSent bits }

/-- The bit times of the abort delimiter. -/
def abortBits : Nat := 8

/-- The frame of an attempt breaks off after `n` bit times, and the abort delimiter goes out in place of the rest (R11,
R12, R15). -/
def State.breakOff (a : Attempt) (n : Nat) (s : State) : State :=
  { s with lac.sending := some ⟨a.startedAt, a.frame, some n⟩ }

/-- An attempt ends short of its end delimiter (R11, R12, R15): of its frame `n` bit times went out, the abort delimiter
goes out in place of the rest, and the bytes of both are charged (R7). -/
def State.abortAttempt (a : Attempt) (n : Nat) (s : State) : State := (s.breakOff a n).closeAttempt (n + abortBits)

/-- The follow-on of a settled entry becomes due as a new entry in the place, or the place is empty (R6). -/
def State.takeFollowOn (p : Fin 10) (e : Entry) (s : State) : State :=
  s.setEntry p (e.followOn.map (fun f => s.newEntry f.1 f.2))

/-- One advance of the backoff generator (R13). -/
def advanceLfsr (r : BitVec 16) : BitVec 16 := if r.getLsbD 0 then (r >>> 1) ^^^ 0xB400#16 else r >>> 1

/-- The backoff in bit times after failure `n`, from the new register value (R13). -/
def backoffBits (r : BitVec 16) (n : Nat) : Nat := (r.toNat % 2 ^ min n 5) * 64

/-- Failure `n` of an entry, `n` from 1 to 7 (R13): a draw, the attempt count, and the backoff from the end of the
failed attempt, which is now. -/
def State.backOff (p : Fin 10) (e : Entry) (s : State) : State :=
  let r := advanceLfsr s.lac.lfsr
  { s with lac.lfsr := r }.setEntry p
    (some { e with attempts := e.attempts + 1, backoffEnd := some (s.now + backoffBits r (e.attempts + 1)) })

/-! ### Discarding (R15) -/

/-- Every entry leaves the due list without being sent (R15). -/
def State.clearDue (s : State) : State := { s with lac.due := Vector.replicate 10 none }

/-- An attempt on the line is cut at this bit boundary (R15): the abort delimiter goes out in the next eight bit times,
with transmit enable high, and its bytes are charged (R7, log 20). Where its echo is lost, the delimiter goes out already
(R11). -/
def State.cutAttempt (s : State) : State :=
  match s.lac.attempt with
  | none => s
  | some a => s.abortAttempt a ((s.echoLoss a).getD (s.now - a.startedAt))

end Sys2Proof.Machine
end

