-- ==== Sys2Proof/Machine/Spectrum.lean ====
section
/-! DEFINITION. The Hold Unit (spec/06_spectrum_and_holds.md): usable slots, the block table, ranking and overlap, the
life of own holds, supersession, and the holds of other stations. -/

namespace Sys2Proof.Machine

/-! ### Windows and usability (R85, R89) -/

/-- The slots of a window. -/
def windowMask (start width : Nat) : SlotMap := BitVec.ofNat 64 ((2 ^ width - 1) * 2 ^ start)

/-- Two windows contain a common slot. -/
def windowsMeet (start width start' width' : Nat) : Bool :=
  decide (max start start' < min (start + width) (start' + width'))

/-- The block mask of a link key, empty if it has no entry (R86). -/
def State.blockMask (s : State) (k : LinkKey) : SlotMap :=
  ((Table.lookup Block.code k.code s.hu.blocks).map Block.mask).getD 0

/-- A hold claims a slot of a window on a link key. -/
def Hold.claims (h : Hold) (k : LinkKey) (start width : Nat) : Bool :=
  h.links.contains k && windowsMeet h.start h.width start width

/-- The window is usable on a link record (R85). -/
def State.usable (s : State) (l : LinkRecord) (start width : Nat) : Bool :=
  l.used &&& windowMask start width == 0
    && s.blockMask l.key &&& windowMask start width == 0
    && s.hu.holds.all (fun h => !h.claims l.key start width)

/-- Two holds overlap: a common link key and a common slot (R89). -/
def Hold.overlaps (a b : Hold) : Bool :=
  a.links.any (fun k => b.links.contains k) && windowsMeet a.start a.width b.start b.width

/-- The rank of R89: `a` outranks `b`. -/
def Hold.outranks (a b : Hold) : Bool :=
  if a.established != b.established then a.established
  else if a.priority ≠ b.priority then decide (b.priority < a.priority)
  else if a.origin ≠ b.origin then decide (a.origin < b.origin)
  else decide (a.number.toNat < b.number.toNat)

/-! ### Records -/

/-- How many peer records are stored. -/
def State.peerHolds (s : State) : Nat := (s.hu.holds.filter (fun h => !h.own)).length

/-- A record is removed, which counts 1 (R88); a peer record's place is free again, which clears HOLDS_OVERFLOW
(R107). -/
def State.removeHold (code : Nat) (s : State) : State :=
  match Table.lookup Hold.code code s.hu.holds with
  | none => s
  | some h =>
    let s := { s with hu.holds := Table.erase Hold.code code s.hu.holds }.count 1
    if h.own then s else s.setOverflow false

/-- A record takes the place of the one with its key. -/
def State.putHold (h : Hold) (s : State) : State := { s with hu.holds := Table.put Hold.code h s.hu.holds }

/-- The peer lifetime of R108, from this station's TIMING values. -/
def State.peerLifetime (s : State) (committed : Bool) : Nat :=
  if committed then s.commitBits + bitsPerSecond else s.contestBits + s.holdBits + bitsPerSecond

/-! ### Own hold slots -/

/-- The HOLD COMMIT that waits on slot `i`, if any, completes with `status` (R93, R95, R99, R100, R111, R112). -/
def State.completeCommit (i : Fin 8) (status : Status) (items : Items) (s : State) : State :=
  match s.slot i with
  | .live sub _ _ =>
    match sub.commitTag with
    | some t => s.post (.carrying .holdCommit t status items)
    | none => s
  | _ => s

/-- A LIVE own hold ends: its record is removed, the waiting HOLD COMMIT completes with the outcome, and the slot
becomes `x`. -/
def State.endHold (i : Fin 8) (outcome : HoldOutcome) (x : Slot) (s : State) : State :=
  match (s.slot i).number with
  | none => s
  | some n =>
    ((s.removeHold (holdCode s.ownId n)).completeCommit i outcome.status (.holdNumber n)).setSlot i x

/-- An own LIVE hold is lost (R95). -/
def State.loseHold (i : Fin 8) (s : State) : State :=
  match s.slot i with
  | .live _ n t => (s.withdrawEntry (holdPlace i)).endHold i .lost (.ended n t .lost)
  | _ => s

/-- An OBJECT due in a place is withdrawn (R103). -/
def State.withdrawObject (p : Fin 10) (s : State) : State :=
  match s.entry p with
  | some e => if e.kind = .object then s.withdrawEntry p else s
  | none => s

/-- Every link of the record shows its whole window used (R103). -/
def State.isSuperseded (s : State) (h : Hold) : Bool :=
  h.links.all (fun k =>
    match Table.lookup LinkRecord.code k.code s.tv.links with
    | some l => l.used &&& windowMask h.start h.width == windowMask h.start h.width
    | none => false)

/-- A committed record that is superseded is removed without a frame (R103). -/
def State.supersede (h : Hold) (s : State) : State :=
  if h.committed && s.isSuperseded h then
    if h.own then
      match s.findSlot h.number with
      | some i =>
        match s.slot i with
        | .live _ n t => (s.withdrawObject (holdPlace i)).endHold i .superseded (.ended n t .superseded)
        | _ => s
      | none => s
    else s.removeHold h.code
  else s

/-- The supersession check when the link set of `node` was replaced (R103, R24, R32). -/
def State.checkSuperseded (node : Nat) (s : State) : State :=
  (s.hu.holds.filter (fun h => h.links.any (fun k => k.node == node))).foldl (fun s h => s.supersede h) s

/-! ### Creating an own hold (R90, R92) -/

/-- The lowest-numbered FREE slot. -/
def State.freeSlot (s : State) : Option (Fin 8) := allSlots.find? (fun i => s.slot i == .free)

/-- The first number from `n` on that no slot holds (R90); at most seven are in use. -/
def State.freeNumber (s : State) : Nat → BitVec 8 → BitVec 8
  | 0, n => n
  | k + 1, n => if (s.findSlot n).isSome then s.freeNumber k (n + 1) else n

/-- The number the next own hold takes (R90). -/
def State.nextNumber (s : State) : BitVec 8 := s.freeNumber 8 (s.hu.lastNumber + 1)

/-- The own hold of R92 in slot `i`. -/
def State.createHold (i : Fin 8) (tag : Tag) (priority start width : Nat) (links : List LinkKey) (s : State) : State :=
  let n := s.nextNumber
  let h : Hold :=
    { origin := s.ownId, number := n, own := true, priority := priority, established := false, committed := false,
      start := start, width := width, links := links, lifetime := none }
  ((({ s.putHold h with hu.lastNumber := n }.count 1).setSlot i (.live (.pending none) n tag)).makeDue
    (holdPlace i) .announce 1)

/-! ### The contest, the commit and the lifetime (R94, R99, R101) -/

/-- The established flag rises, which counts 1, and the hold lifetime is set (R94). -/
def State.establish (n : BitVec 8) (s : State) : State :=
  match s.ownHold n with
  | none => s
  | some h => (s.putHold { h with established := true, lifetime := some s.holdBits }).count 1

/-- The contest of a slot in ANNOUNCED is over (R94). -/
def State.endContest (i : Fin 8) (s : State) : State :=
  match s.slot i with
  | .live (.announced _ none) n t => (s.establish n).setSlot i (.live .held n t)
  | .live (.announced _ (some c)) n t =>
    ((s.establish n).setSlot i (.live (.committing c) n t)).makeDue (holdPlace i) .commit 1
  | _ => s

/-- The lifetime of a slot in HELD or COMMITTED has run out (R101). -/
def State.expireHold (i : Fin 8) (s : State) : State :=
  match s.slot i with
  | .live .held n t => (s.endHold i .expired (.closing n t .expired true)).makeDue (holdPlace i) .release 1
  | .live .committed n t => (s.endHold i .expired (.closing n t .expired true)).makeDue (holdPlace i) .release 1
  | _ => s

/-! ### What the HU does with an outcome report (R91, R93, R99, R102) -/

/-- SENT for the COMMIT of a slot in COMMITTING (R99). -/
def State.commitSent (i : Fin 8) (n : BitVec 8) (t c : Tag) (s : State) : State :=
  match s.ownHold n with
  | none => s
  | some h =>
    let h := { h with committed := true, lifetime := some s.commitBits }
    ((((s.putHold h).count 1).setSlot i (.live .committed n t)).post (.plain .holdCommit c .ok)).supersede h

/-- SENT for a hold frame of slot `i`. The contest timer starts at 0 (R93; log 31, DESIGN CHOICE). -/
def State.holdSent (i : Fin 8) (k : FrameKind) (s : State) : State :=
  match k, s.slot i with
  | .announce, .live (.pending c) n t => s.setSlot i (.live (.announced 0 c) n t)
  | .commit, .live (.committing c) n t => s.commitSent i n t c
  | .release, .closing n t o true => s.setSlot i (.ended n t o)
  | .release, .closing _ _ _ false => s.setSlot i .free
  | _, _ => s

/-- DROPPED for a hold frame of slot `i`. -/
def State.holdDropped (i : Fin 8) (k : FrameKind) (s : State) : State :=
  match k, s.slot i with
  | .announce, .live (.pending _) n t => s.endHold i .failed (.ended n t .failed)
  | .commit, .live (.committing c) n t =>
    (s.post (.plain .holdCommit c .mediumFailed)).setSlot i (.live .held n t)
  | .release, .closing n t o true => s.setSlot i (.ended n t o)
  | .release, .closing _ _ _ false => s.setSlot i .free
  | _, _ => s

/-- The HU restates slot `i` after a fresh-start ADVERT was sent in OPERATING (R97). -/
def State.restate (i : Fin 8) (s : State) : State :=
  match s.slot i with
  | .live (.announced _ _) _ _ => s.makeDue (holdPlace i) .announce 1
  | .live .held _ _ => s.makeDue (holdPlace i) .object 0
  | .live .committed _ _ => s.makeDue (holdPlace i) .object 0
  | _ => s

/-- The HU restates every LIVE own hold (R97). -/
def State.restateAll (s : State) : State := allSlots.foldl (fun s i => s.restate i) s

/-! ### Holds of other stations (R104 to R110) -/

/-- The substates that object (R96). -/
def Substate.objects : Substate → Bool
  | .held => true
  | .committing _ => true
  | .committed => true
  | _ => false

/-- Slot `i` objects to an incoming hold if its own record overlaps and outranks it (R96). -/
def State.objectIf (h : Hold) (i : Fin 8) (s : State) : State :=
  match s.slot i with
  | .live sub n _ =>
    match s.ownHold n with
    | some r => if sub.objects && r.overlaps h && r.outranks h then s.makeDue (holdPlace i) .object 0 else s
    | none => s
  | _ => s

/-- Every own hold that must object does (R96, R106). -/
def State.objectAll (h : Hold) (s : State) : State := allSlots.foldl (fun s i => s.objectIf h i) s

/-- A record outranked by an incoming hold is removed; an own one is lost (R106). -/
def State.yield (r : Hold) (s : State) : State :=
  if r.own then
    match s.findSlot r.number with
    | some i => s.loseHold i
    | none => s
  else s.removeHold r.code

/-- An incoming hold that survives the comparison is stored, or finds no place (R107). -/
def State.storeHold (h : Hold) (s : State) : State :=
  if s.peerHolds < Config.peerHoldPlaces then
    let h := { h with lifetime := some (s.peerLifetime h.committed) }
    ((s.putHold h).count 1).supersede h
  else s.setOverflow true

/-- `r` among records in rank order from the highest (R89). -/
def placeByRank (r : Hold) : List Hold → List Hold
  | [] => [r]
  | x :: xs => if r.outranks x then r :: x :: xs else x :: placeByRank r xs

/-- The records in rank order from the highest (R89, R106). -/
def rankOrder (l : List Hold) : List Hold := l.foldr placeByRank []

/-- An incoming hold that is no refresh meets every live record that overlaps it, in rank order from the highest (R106).
Several HOLD COMMITs that wait on lost holds complete LOST in that order (log 33, DEDUCED). -/
def State.contend (h : Hold) (s : State) : State :=
  let rivals := rankOrder (s.hu.holds.filter (fun r => r.overlaps h))
  if rivals.any (fun r => r.outranks h) then s.objectAll h
  else (rivals.foldl (fun s r => s.yield r) s).storeHold h

/-- A frame that repeats a stored peer record (R105). -/
def State.refresh (r h : Hold) (s : State) : State :=
  let est := r.established || h.established
  let com := r.committed || h.committed
  let r' := { r with established := est, committed := com, lifetime := some (s.peerLifetime com) }
  let s := s.putHold r'
  let s := if est != r.established || com != r.committed then s.count 1 else s
  if com != r.committed then s.supersede r' else s

/-- An ANNOUNCE, OBJECT or COMMIT that passed its checks (R105, R106). -/
def State.incoming (h : Hold) (s : State) : State :=
  match Table.lookup Hold.code h.code s.hu.holds with
  | none => s.contend h
  | some r =>
    if r.start = h.start ∧ r.width = h.width ∧ r.links = h.links then s.refresh r h
    else (s.removeHold h.code).contend h

/-- The origin has a record in the node table. -/
def State.knows (s : State) (origin : Nat) : Bool := (Table.lookup NodeRecord.id origin s.tv.nodes).isSome

/-- The HU takes an ANNOUNCE, OBJECT or COMMIT (R104). -/
def State.holdFrame (k : FrameKind) (origin : Nat) (body : List Byte) (s : State) : State :=
  if s.knows origin then
    match readHoldBody body with
    | none => s
    | some b =>
      s.incoming
        { origin := origin, number := b.number, own := false, priority := b.priority,
          established := decide (k ≠ .announce), committed := decide (k = .commit) || (decide (k = .object) && b.committed),
          start := b.start, width := b.width, links := b.links, lifetime := none }
  else s

/-- The HU takes a RELEASE (R104, R109): a body of one byte, the hold number. -/
def State.releaseFrame (origin : Nat) (body : List Byte) (s : State) : State :=
  if s.knows origin then
    match body with
    | [n] => s.removeHold (holdCode origin n)
    | _ => s
  else s

/-- The HU removes every peer record of an origin (R110). -/
def State.removePeerHolds (origin : Nat) (s : State) : State :=
  (s.hu.holds.filter (fun h => !h.own && h.origin == origin)).foldl (fun s h => s.removeHold h.code) s

/-! ### Muting and leaving (R111, R112, R113) -/

/-- MUTED entry settles slot `i` (R111). -/
def State.muteSlot (i : Fin 8) (s : State) : State :=
  match s.slot i with
  | .live _ n t => s.endHold i .failed (.ended n t .failed)
  | .closing _ _ _ _ => s.setSlot i .free
  | _ => s

/-- MUTED entry settles every slot (R111), in ascending slot number, so several HOLD COMMITs that wait complete FAILED in
that order (log 32, DESIGN CHOICE: R111, R178 and R179 give none). -/
def State.muteHolds (s : State) : State := allSlots.foldl (fun s i => s.muteSlot i) s

/-- An attempt of an ANNOUNCE is on the line in the place of slot `i` (R100, R112). -/
def State.announceOnLine (s : State) (i : Fin 8) : Bool :=
  match s.lac.attempt with
  | some a => a.place == holdPlace i && a.kind == .announce
  | none => false

/-- LEAVE settles slot `i` (R112). -/
def State.leaveSlot (i : Fin 8) (s : State) : State :=
  match s.slot i with
  | .live (.pending _) n t =>
    if s.announceOnLine i then
      (s.endHold i .released (.closing n t .released false)).makeDue (holdPlace i) .release 1
    else (s.withdrawEntry (holdPlace i)).endHold i .released .free
  | .live _ n t => (s.endHold i .released (.closing n t .released false)).makeDue (holdPlace i) .release 1
  | .closing n t o _ => s.setSlot i (.closing n t o false)
  | .ended _ _ _ => s.setSlot i .free
  | .free => s

/-- LEAVE settles every slot, in ascending slot number (R112, R180). -/
def State.leaveHolds (s : State) : State := allSlots.foldl (fun s i => s.leaveSlot i) s

/-- The end of LEAVE empties the hold table and frees every slot (R113). -/
def State.clearHolds (s : State) : State :=
  { s with hu.holds := [], hu.slots := Vector.replicate 8 .free }.setOverflow false

end Sys2Proof.Machine
end

