-- ==== Sys2Proof/Machine/View.lean ====
section
/-! DEFINITION. The Topology View (spec/02_the_topology_view.md): link verification, storing of link sets, ADVERT
acceptance, aging and purge. -/

namespace Sys2Proof.Machine

/-! ### Verification (R33) -/

/-- The definition of VERIFIED: the link does not return to its own node, its far node has a record, and the far node
advertises the reverse. -/
def reverseStored (nodes : List NodeRecord) (links : List LinkRecord) (l : LinkRecord) : Bool :=
  l.toNode != l.key.node
    && (Table.lookup NodeRecord.id l.toNode nodes).isSome
    && (match Table.lookup LinkRecord.code (LinkKey.code ⟨l.toNode, l.toPort⟩) links with
        | some r => r.toNode == l.key.node && r.toPort == l.key.port
        | none => false)

/-- Verification is recomputed for the links to and from a node, as the tables stand (R33). -/
def State.reverify (node : Nat) (s : State) : State :=
  { s with tv.links := s.tv.links.map (fun l =>
      if l.key.node = node ∨ l.toNode = node then { l with verified := reverseStored s.tv.nodes s.tv.links l } else l) }

/-! ### Link sets (R22, R24, R30, R31) -/

/-- The entries of a frame that can form a link record, in frame order (R30); `seen` are the from-ports of the
entries before. An entry that repeats the from-port of an earlier one is ignored whether or not the earlier one was
kept (log 15). -/
def validEntriesFrom (seen : List Nat) : List LinkEntry → List LinkEntry
  | [] => []
  | e :: es =>
    if e.fromPort ≤ 15 ∧ e.toPort ≤ 15 ∧ validNode e.toNode ∧ e.fromPort ∉ seen then
      { e with cost := max 1 e.cost } :: validEntriesFrom (e.fromPort :: seen) es
    else validEntriesFrom (e.fromPort :: seen) es

/-- The valid entries in ascending from-port order; an admin cost of 0 is stored as 1 (R30, R31). -/
def validEntries (es : List LinkEntry) : List LinkEntry :=
  (validEntriesFrom [] es).foldl (fun l e => Table.put LinkEntry.fromPort e l) []

/-- The link record of an entry, before its verification is computed. -/
def LinkEntry.record (node : Nat) (e : LinkEntry) : LinkRecord :=
  ⟨⟨node, e.fromPort⟩, e.toNode, e.toPort, e.cost, e.noise, e.dispersion, e.used, false⟩

/-- Links whose from-node is not `node`. -/
def dropLinks (node : Nat) (links : List LinkRecord) : List LinkRecord := links.filter (fun l => l.key.node != node)

/-- The link records of some entries are stored. -/
def storeLinks (node : Nat) (es : List LinkEntry) (links : List LinkRecord) : List LinkRecord :=
  es.foldl (fun ls e => Table.put LinkRecord.code (e.record node) ls) links

/-- Link room (R22): 496 less the peer link records stored. -/
def State.linkRoom (s : State) : Nat := Config.peerLinkPlaces - (dropLinks s.ownId s.tv.links).length

/-- The origin's record takes a new links-missing count. -/
def State.setMissing (node n : Nat) (s : State) : State :=
  match Table.lookup NodeRecord.id node s.tv.nodes with
  | none => s
  | some r => { s with tv.nodes := Table.put NodeRecord.id { r with missing := n } s.tv.nodes }

/-- The link set of a peer is replaced (R31): the entries with the lowest from-ports are stored as far as link room
goes, the number left out is kept, and verification is recomputed (R33). -/
def State.replacePeerLinks (origin : Nat) (es : List LinkEntry) (s : State) : State :=
  let s := { s with tv.links := dropLinks origin s.tv.links }
  let room := s.linkRoom
  let valid := validEntries es
  let s := { s with tv.links := storeLinks origin (valid.take room) s.tv.links }
  (s.setMissing origin (valid.length - room)).reverify origin

/-- The own link set is replaced in the sixteen places kept for it (R24), which counts 1. -/
def State.replaceOwnLinks (es : List LinkEntry) (s : State) : State :=
  let s := { s with tv.links := storeLinks s.ownId es (dropLinks s.ownId s.tv.links) }
  (s.reverify s.ownId).count 1

/-! ### Purge and aging (R34, R35) -/

/-- One origin is removed from the view (R35). -/
def State.purge (origin : Nat) (s : State) : State :=
  let s := { s with tv.links := dropLinks origin s.tv.links,
                    tv.nodes := Table.erase NodeRecord.id origin s.tv.nodes }
  (((s.removePeerHolds origin).reverify origin).setViewIncomplete false).count 1

/-- A peer record one tick older; the own record is not aged. -/
def NodeRecord.older (r : NodeRecord) : NodeRecord := if r.own then r else { r with age := r.age + 1 }

/-- The TV takes an RI tick (R34). -/
def State.ageView (s : State) : State :=
  if s.lac.isolated then s
  else
    let s := { s with tv.nodes := s.tv.nodes.map NodeRecord.older }
    (s.tv.nodes.filter (fun r => !r.own && decide (10 ≤ r.age))).foldl (fun s r => s.purge r.id) s

/-! ### ADVERTs (R25 to R32) -/

/-- The record of an accepted ADVERT; the links-missing count is set with the link set. -/
def Advert.record (origin : Nat) (a : Advert) : NodeRecord :=
  { id := origin, profile := a.profile, transit := a.transit, sequence := a.sequence, age := 0, own := false,
    missing := 0 }

/-- VIEW_INCOMPLETE is set when the origin's links-missing count is above 0 (R31, R36). -/
def State.noteMissing (origin : Nat) (s : State) : State :=
  match Table.lookup NodeRecord.id origin s.tv.nodes with
  | some r => if 0 < r.missing then s.setViewIncomplete true else s
  | none => s

/-- An ADVERT's content is stored (R28, R29): the node record, the link set, verification, VIEW_INCOMPLETE, the two
counts, and then the HU's supersession check (R32). -/
def State.storeAdvert (origin : Nat) (a : Advert) (s : State) : State :=
  let s := { s with tv.nodes := Table.put NodeRecord.id (a.record origin) s.tv.nodes }
  ((((s.replacePeerLinks origin a.entries).noteMissing origin).count 2).checkSuperseded origin)

/-- The difference (new sequence - stored sequence) modulo 65536 (R29). -/
def sequenceAhead (new stored : BitVec 16) : Nat := (new - stored).toNat

/-- The origin's age is set to 0 and nothing else changes (R29, equal). -/
def State.rejuvenate (r : NodeRecord) (s : State) : State :=
  { s with tv.nodes := Table.put NodeRecord.id { r with age := 0 } s.tv.nodes }

/-- An ADVERT from a known origin (R26, R27, R29). -/
def State.advertKnown (r : NodeRecord) (origin : Nat) (a : Advert) (s : State) : State :=
  let ahead := sequenceAhead a.sequence r.sequence
  if a.withdraw then (if ahead ≤ 32767 then s.purge origin else s)
  else if a.fresh then (s.removePeerHolds origin).storeAdvert origin a
  else if ahead = 0 then s.rejuvenate r
  else if ahead ≤ 32767 then s.storeAdvert origin a
  else s

/-- An ADVERT from an unknown origin (R26, R28). -/
def State.advertUnknown (origin : Nat) (a : Advert) (s : State) : State :=
  if a.withdraw then s
  else if s.tv.nodes.length < Config.nodePlaces then s.storeAdvert origin a
  else s.setViewIncomplete true

/-- The TV takes an ADVERT (R25 to R32). -/
def State.advertFrame (origin : Nat) (body : List Byte) (s : State) : State :=
  match readAdvert body with
  | none => s
  | some a =>
    match Table.lookup NodeRecord.id origin s.tv.nodes with
    | some r => s.advertKnown r origin a
    | none => s.advertUnknown origin a

/-! ### The own record (R23) and the end of LEAVE (R40) -/

/-- The own record is inserted at JOIN with the own link set (R23); the insertion counts 2. -/
def State.insertOwn (es : List LinkEntry) (s : State) : State :=
  match s.sc.identity with
  | none => s
  | some v =>
    let r : NodeRecord :=
      { id := v.nodeId, profile := v.profile, transit := v.transit, sequence := s.ads.sequence, age := 0, own := true,
        missing := 0 }
    ({ s with tv.nodes := Table.put NodeRecord.id r s.tv.nodes }.count 1).replaceOwnLinks es

/-- The own record's sequence follows the ADS's (R55). -/
def State.writeOwnSequence (s : State) : State :=
  match s.ownRecord with
  | none => s
  | some r => { s with tv.nodes := Table.put NodeRecord.id { r with sequence := s.ads.sequence } s.tv.nodes }

/-- The view is cleared at the end of LEAVE (R40), which counts 1. -/
def State.clearView (s : State) : State :=
  ({ s with tv.nodes := [], tv.links := [] }.setViewIncomplete false).count 1

end Sys2Proof.Machine
end

