-- ==== Sys2Proof/Machine/Scheduler.lean ====
section
/-! DEFINITION. The Advertisement Scheduler (spec/04_advertisement_scheduling.md): the refresh debt, making ADVERTs due,
the due check, content reports and SOLICITs. The ends of ADVERT entries stand in Outcomes.lean. -/

namespace Sys2Proof.Machine

/-- The states in which the due check runs and content reports make an ADVERT due (R59, R61). -/
def State.advertising (s : State) : Bool := s.sc.station == .announcing || s.sc.station == .operating

/-- The ADS makes an ADVERT due with a class (R58). -/
def State.makeAdvertDue (c : Fin 3) (s : State) : State :=
  { s.makeDue advertPlace .advert c with ads.entryPresent := true }

/-- The class of the first row of R59's table that applies; `none` where nothing is made due. -/
def State.dueClass (s : State) : Option (Fin 3) :=
  if s.ads.debt = 8 then some 0
  else if s.sc.station = .announcing ∧ s.ads.announceCount < 2 then some 1
  else if s.ads.mark = .waiting then some 1
  else if 1 ≤ s.ads.debt then some 2
  else none

/-- The due check (R59). -/
def State.dueCheck (s : State) : State :=
  if !s.advertising || s.ads.postDropWait then s
  else if s.ads.entryPresent then (if s.ads.debt = 8 then s.raiseAdvert else s)
  else
    match s.dueClass with
    | some c => s.makeAdvertDue c
    | none => s

/-- A change of own content, or the end of isolation, reaches the ADS (R60, R61, R62). In MUTED the mark stays as it
is (R70, log 12). -/
def State.contentReport (s : State) : State :=
  if s.sc.station = .muted then s
  else
    let s := { s with ads.mark := .waiting }
    if s.advertising && !s.ads.postDropWait then s.makeAdvertDue 1 else s

/-- The LAC clears ISOLATED for a good frame from another origin and tells the ADS (R19, R62). -/
def State.endIsolation (s : State) : State :=
  if s.lac.isolated then (s.setIsolated false).contentReport else s

/-- The ADS takes a SOLICIT (R63): a pull-in ADVERT, class 2. -/
def State.solicitFrame (s : State) : State :=
  if s.sc.station = .operating ∧ s.ads.postDropWait = false ∧ s.ads.debt ≠ -8 ∧ s.ads.entryPresent = false then
    s.makeAdvertDue 2
  else s

/-- The ADS takes an RI tick (R57, R65): the debt rises in LISTENING, ANNOUNCING and OPERATING, and the post-drop wait
clears in the latter two. The due check follows at the end of the tick. -/
def State.tickDebt (s : State) : State :=
  if s.sc.station = .listening then { s with ads.debt := min 8 (s.ads.debt + 1) }
  else if s.advertising then { s with ads.debt := min 8 (s.ads.debt + 1), ads.postDropWait := false }
  else s

/-- The ADS at JOIN (R56): the sequence starts at the low 16 bits of the view change counter. -/
def State.joinAds (s : State) : State :=
  { s with ads := { Ads.atReset with sequence := s.tv.counter.setWidth 16, freshCount := 2 } }

/-- A change held back by a dropped or discarded ADVERT is owed again (R60). -/
def ContentMark.returned : ContentMark → ContentMark
  | .carried => .waiting
  | m => m

/-- The ADS at DISCARDED for its entry (R58, R60, R70). -/
def State.advertDiscarded (s : State) : State :=
  { s with ads.entryPresent := false, ads.mark := s.ads.mark.returned }

end Sys2Proof.Machine
end

