-- ==== Sys2Proof/Machine/Ports.lean ====
section
/-! DEFINITION. The Port Table (spec/03_local_ports_and_adjacency.md): the own link set, rebuilds, and derived
adjacency. -/

namespace Sys2Proof.Machine

/-- Port record `p` (0 to 15). -/
def State.port (s : State) (p : Nat) : PortRecord := s.pt.ports.getD p PortRecord.atReset

/-- Port record `p` becomes `r`. -/
def State.setPort (p : Nat) (r : PortRecord) (s : State) : State :=
  { s with pt.ports := s.pt.ports.setIfInBounds p r }

/-- The port numbers in ascending order. -/
def allPorts : List Nat := List.range 16

/-- The own link of port `p`: present when it is fitted, enabled and HEARD (R49). -/
def State.ownLink (s : State) (p : Nat) : Option LinkEntry :=
  if p < s.portCount ∧ (s.port p).enabled then
    match (s.port p).trace with
    | .heard node q =>
      some ⟨p, node, q, (s.port p).cost, (s.port p).noise, (s.port p).dispersion, (s.port p).used⟩
    | _ => none
  else none

/-- The own link set, in ascending port number (R49). -/
def State.ownLinkSet (s : State) : List LinkEntry := allPorts.filterMap s.ownLink

/-- A rebuild (R50 steps 2 to 4): the TV replaces the own link set, the HU checks supersession, the ADS is told. -/
def State.rebuild (s : State) : State :=
  ((s.replaceOwnLinks s.ownLinkSet).checkSuperseded s.ownId).contentReport

/-- A port record is written; a port change rebuilds the own link set in the states from LISTENING on (R48, R50). -/
def State.changePort (p : Nat) (r : PortRecord) (s : State) : State :=
  if s.port p = r then s
  else if s.sc.station.joined then (s.setPort p r).rebuild
  else s.setPort p r

/-- Port requests are answered SEQUENCE in UNCONFIGURED and RANGE for a port that is not fitted (R43). -/
def State.onPort (kind : RequestKind) (tag : Tag) (p : Nat) (s : State) (act : State → State) : State :=
  if s.sc.station = .unconfigured then s.post (.plain kind tag .sequence)
  else if 15 < p ∨ s.portCount ≤ p then s.post (.range kind tag)
  else act s

/-- The derived adjacency of a port (R52). -/
def State.adjacency (s : State) (p : Nat) : Option Adjacency :=
  match (s.port p).trace with
  | .heard node q =>
    match Table.lookup NodeRecord.id node s.tv.nodes, Table.lookup LinkRecord.code (LinkKey.code ⟨node, q⟩) s.tv.links with
    | some _, some l => if l.toNode = s.ownId ∧ l.toPort = p then some .verified else some .mismatch
    | _, _ => some .unconfirmed
  | _ => none

/-- The verification of the own link of a port, when the port carries one (R53). -/
def State.ownLinkVerified (s : State) (p : Nat) : Option Bool :=
  match s.ownLink p with
  | none => none
  | some _ =>
    some ((Table.lookup LinkRecord.code (LinkKey.code ⟨s.ownId, p⟩) s.tv.links).any LinkRecord.verified)

end Sys2Proof.Machine
end

