-- ==== Sys2Proof/Machine/Membership.lean ====
section
/-! DEFINITION. The Station Controller's own work (spec/10_start_up_and_station_states.md): entering OPERATING, MUTED
entry, the flush of the path queue, and the completion of LEAVE. -/

namespace Sys2Proof.Machine

/-- The waiting JOIN completes and is no longer waiting. -/
def State.completeJoin (status : Status) (s : State) : State :=
  match s.sc.joinWaiting with
  | none => s
  | some t => { s.post (.plain .join t status) with sc.joinWaiting := none }

/-- The waiting LEAVE completes and is no longer waiting. -/
def State.completeLeaving (status : Status) (s : State) : State :=
  match s.sc.leaveWaiting with
  | none => s
  | some t => { s.post (.plain .leave t status) with sc.leaveWaiting := none }

/-- The SC enters OPERATING, and JOIN completes OK (R177). -/
def State.enterOperating (s : State) : State :=
  { s with sc.station := .operating }.completeJoin .ok

/-- MUTED entry (R179): the state and the condition, the cut attempt and the emptied due list (R15), the hold slots
(R111) and the ADS (R70). -/
def State.enterMuted (s : State) : State :=
  let s := ({ s with sc.station := .muted }.setMuted true).cutAttempt.clearDue
  s.muteHolds.advertDiscarded

/-- A path request that never completed its search, with the passes it ran (R144). -/
def abortedCompletion (r : PathRequest) (passes : Nat) : Completion :=
  ⟨.path, r.tag, .aborted, .none, r.clamped, .aborted passes⟩

/-- The ABORT that set a search's mark completes OK (R136, R138). -/
def State.completeAbort (abortTag : Option Tag) (s : State) : State :=
  match abortTag with
  | none => s
  | some t => s.post (.plain .abort t .ok)

/-- The requests still in the queue complete ABORTED, in queue order (R136). -/
def State.abortAll (l : List PathRequest) (s : State) : State :=
  l.foldl (fun s r => s.post (abortedCompletion r 0)) s

/-- LEAVE flushes the path queue (R136). -/
def State.flushPaths (s : State) : State :=
  let emptied := { s with psu.queue := [], psu.context := none }
  match s.psu.context, s.psu.queue with
  | some c, r :: rest => ((emptied.post (abortedCompletion r c.passes)).completeAbort c.abortTag).abortAll rest
  | _, l => emptied.abortAll l

/-- LEAVE completes (R181): the view and the hold table are cleared, the due list is discarded, the budget, the watch
and ISOLATED are settled without telling the ADS (R15, R19), the ADS, the RI timer, the listen count and MUTED are
reset, and the station is CONFIGURED. -/
def State.finishLeave (status : Status) (s : State) : State :=
  let s := s.clearView.clearHolds
  let s := { s.clearDue with lac.budget := 0, lac.watch := .off }.setIsolated false
  let s := { s with ads := Ads.atReset, sc.riTimer := none, sc.listen := 0 }.setMuted false
  { s with sc.station := .configured }.completeLeaving status

/-- A duplicate identity is reported to the SC (R178). -/
def State.duplicateReport (s : State) : State :=
  match s.sc.station with
  | .listening => s.enterMuted.completeJoin .duplicateId
  | .announcing => s.enterMuted.completeJoin .duplicateId
  | .operating => s.enterMuted
  | .leaving => s.enterMuted.finishLeave .duplicateId
  | _ => s

/-- A good frame that is not the echo (R17): ignored before LISTENING and after LEAVE, reported if it bears the own
id, and otherwise dispatched by kind after ISOLATED is cleared. -/
def State.receiveGood (k : FrameKind) (origin : Nat) (body : List Byte) (s : State) : State :=
  if !s.sc.station.joined then s
  else if origin = s.ownId then s.duplicateReport
  else
    let s := s.endIsolation
    match k with
    | .advert => s.advertFrame origin body
    | .withdraw => s.advertFrame origin body
    | .solicit => s.solicitFrame
    | .announce => s.holdFrame .announce origin body
    | .object => s.holdFrame .object origin body
    | .commit => s.holdFrame .commit origin body
    | .release => s.releaseFrame origin body

/-- Receive activity is high, and it is not the echo of the station's own transmission (R11, R16). -/
def State.listens (s : State) : Bool := s.lac.activity && !s.lac.echo

/-- A good frame from the line has ended (R16, R17); its bits, sent as FRAME_DROPPED's, act the same way. While receive
activity is low no frame is received, and the echo is never dispatched (R11). -/
def State.receiveFrame (k : FrameKind) (origin : BitVec 16) (body : List Byte) (s : State) : State :=
  if s.listens then
    let s := { s with lac.assembler := .waiting }
    if validNode origin.toNat ∧ body.length ≤ maxBody then s.receiveGood k origin.toNat body else s
  else s

/-- The line delivers bit times (R16, R185): the assembler takes them while receive activity is high, and each frame that
they end is checked and, if good, dispatched. The echo is never dispatched (R11). -/
def State.receiveLine (line : List LineBit) (s : State) : State :=
  if s.listens then
    ((s.lac.assembler.ended line).filterMap judgeEnded).foldl (fun s f => s.receiveGood f.1 f.2.1 f.2.2)
      { s with lac.assembler := s.lac.assembler.after line }
  else s

end Sys2Proof.Machine
end

