-- ==== Sys2Proof/Machine/Outcomes.lean ====
section
/-! DEFINITION. The end of an attempt as the owners see it (R6, R14): SENT and DROPPED for ADVERTs (R64 to R69), hold
frames (R91) and the SOLICIT (R176), and the settling of the place. -/

namespace Sys2Proof.Machine

/-- The ADVERT frame on the line carries the fresh-start flag: body byte 3, bit 0 (R186). -/
def Attempt.fresh (a : Attempt) : Bool := ((a.frame.getD 8 0).getLsbD 0)

/-- The sequence advances and the debt falls at the end of a sent ADVERT (R64 steps 1 and 2). -/
def State.advanceSequence (s : State) : State :=
  { s with ads.sequence := s.ads.sequence + 1, ads.debt := max (-8) (s.ads.debt - 1) }.writeOwnSequence

/-- An ADVERT entry has ended in ANNOUNCING; at the second the SC enters OPERATING (R64 step 6, R65, R66). -/
def State.countAnnounced (s : State) : State :=
  if s.sc.station = .announcing then
    let s := { s with ads.announceCount := s.ads.announceCount + 1 }
    if s.ads.announceCount = 2 then s.enterOperating else s
  else s

/-- A change that the sent ADVERT carried has reached the domain (R60). -/
def ContentMark.delivered : ContentMark → ContentMark
  | .carried => .clear
  | m => m

/-- A fresh-start ADVERT was sent (R64 step 3). -/
def State.freshSent (s : State) : State :=
  let s := { s with ads.freshCount := s.ads.freshCount - 1 }
  if s.sc.station = .operating then s.restateAll else s

/-- SENT for an ADVERT of the ADS (R64). -/
def State.advertSent (fresh follows : Bool) (s : State) : State :=
  let s := s.advanceSequence
  let s := if fresh then s.freshSent else s
  let s := { s with ads.mark := s.ads.mark.delivered, ads.entryPresent := follows }
  s.countAnnounced.dueCheck

/-- DROPPED for an ADVERT of the ADS (R65). -/
def State.advertDropped (s : State) : State :=
  let s := { s with ads.postDropWait := true, ads.entryPresent := false, ads.mark := s.ads.mark.returned }
  s.countAnnounced.dueCheck

/-- SENT reaches the owner of the place (R6); `follows` tells whether a follow-on became due there (R58). -/
def State.reportSent (a : Attempt) (follows : Bool) (s : State) : State :=
  match slotOfPlace a.place with
  | some i => s.holdSent i a.kind
  | none =>
    match a.kind with
    | .advert => s.advertSent a.fresh follows
    | .withdraw => s.advanceSequence.finishLeave .ok
    | _ => s

/-- DROPPED reaches the owner of the place (R14). -/
def State.reportDropped (p : Fin 10) (k : FrameKind) (s : State) : State :=
  match slotOfPlace p with
  | some i => s.holdDropped i k
  | none =>
    match k with
    | .advert => s.advertDropped
    | .withdraw => s.finishLeave .mediumFailed
    | _ => s

/-- The attempt succeeds (R6 cases 1 and 3, R12). -/
def State.succeedAttempt (a : Attempt) (s : State) : State :=
  let closed := s.closeAttempt a.bits
  match s.entry a.place with
  | none => closed
  | some e => (closed.takeFollowOn a.place e).reportSent a e.followOn.isSome

/-- The attempt fails after `n` bit times of its frame (R6 cases 2 to 4, R11 to R14): its end is that of the abort
delimiter, up to which the time passes (log 20). -/
def State.failAttempt (a : Attempt) (n : Nat) (s : State) : State :=
  let closed := (s.elapse (a.startedAt + n + abortBits - s.now)).abortAttempt a n
  match s.entry a.place with
  | none => closed
  | some e =>
    if e.followOn.isSome || e.withdrawn then closed.takeFollowOn a.place e
    else if e.attempts < 7 then closed.backOff a.place e
    else (closed.setEntry a.place none).reportDropped a.place a.kind

end Sys2Proof.Machine
end

