-- ==== Sys2Proof/Machine/LineEvents.lean ====
section
/-! DEFINITION. The events of the domain line: receive activity (R1, R9, R11, R18), received frames (R16, R17), and the
start and end of the station's own attempts (R8, R11, R12). -/

namespace Sys2Proof.Machine

/-! ### Receive activity -/

/-- A rise of receive activity starts the watch from 0 while it is not off (R18). -/
def Watch.restarted : Watch → Watch
  | .off => .off
  | _ => .running 0

/-- A rise after the echo limit comes too late for the attempt on the line (R11): its frame broke off at the limit. -/
def State.missLimit (s : State) : State :=
  match s.lac.attempt with
  | none => s
  | some a =>
    if s.brokenOff.isNone && !s.lac.echo && decide (a.startedAt + echoLimit < s.now) then s.breakOff a echoLimit else s

/-- RECEIVE_ACTIVITY_RISE (R1): the idle count and the watch restart. Activity that rises while transmit enable is high,
the abort delimiter included, is the echo (R1, R11). -/
def execReceiveActivityRise (dt : Nat) (s : State) : Host.Outcome State Fault Refusal :=
  .next (if s.resetHeld then { s with lac.activity := true }
  else s.event (fun s =>
    let s := s.elapse dt
    { s.missLimit with
      lac.activity := true, lac.echo := s.transmitEnable, lac.idle := 0, lac.watch := s.lac.watch.restarted }))

/-- Receive activity falls (R9, R11, R16): the idle count runs, a frame being assembled is dropped, and the echo is over.
An attempt on the line whose echo it was loses it: its frame breaks off here, and ECHO_LOST ends it after the abort
delimiter (log 20). -/
def State.fallSilent (s : State) : State :=
  let fallen := { s with lac.activity := false, lac.echo := false, lac.assembler := .waiting }
  match s.lac.attempt with
  | none => fallen
  | some a => if s.lac.echo && s.brokenOff.isNone then fallen.breakOff a (s.now - a.startedAt) else fallen

/-- RECEIVE_ACTIVITY_FALL (R9, R11, R16). -/
def execReceiveActivityFall (dt : Nat) (s : State) : Host.Outcome State Fault Refusal :=
  .next (if s.resetHeld then { s with lac.activity := false, lac.echo := false }
  else s.event (fun s => (s.elapse dt).fallSilent))

/-! ### Received frames -/

/-- FRAME_DROPPED (R16, R185): what the line delivers goes through the assembler; a frame that fails a check changes no
table or condition. -/
def execFrameDropped (received ending : List LineBit) (s : State) : Host.Outcome State Fault Refusal :=
  .next (s.event (State.receiveLine (received ++ ending)))

/-- ADVERT_RECEIVED (R17, R25 to R32). -/
def execAdvertReceived (origin : BitVec 16) (body : List Byte) (s : State) : Host.Outcome State Fault Refusal :=
  .next (s.event (State.receiveFrame .advert origin body))

/-- SOLICIT_RECEIVED (R17, R63). -/
def execSolicitReceived (origin : BitVec 16) (body : List Byte) (s : State) : Host.Outcome State Fault Refusal :=
  .next (s.event (State.receiveFrame .solicit origin body))

/-- ANNOUNCE_RECEIVED (R17, R104 to R107). -/
def execAnnounceReceived (origin : BitVec 16) (body : List Byte) (s : State) : Host.Outcome State Fault Refusal :=
  .next (s.event (State.receiveFrame .announce origin body))

/-- OBJECT_RECEIVED (R17, R104 to R107). -/
def execObjectReceived (origin : BitVec 16) (body : List Byte) (s : State) : Host.Outcome State Fault Refusal :=
  .next (s.event (State.receiveFrame .object origin body))

/-- COMMIT_RECEIVED (R17, R104 to R107). -/
def execCommitReceived (origin : BitVec 16) (body : List Byte) (s : State) : Host.Outcome State Fault Refusal :=
  .next (s.event (State.receiveFrame .commit origin body))

/-- RELEASE_RECEIVED (R17, R109). -/
def execReleaseReceived (origin : BitVec 16) (body : List Byte) (s : State) : Host.Outcome State Fault Refusal :=
  .next (s.event (State.receiveFrame .release origin body))

/-- DUPLICATE_IDENTITY (R17, R178): the SC takes the report of a good frame bearing the own id. It may be taken together
with other events, so an attempt of the station's own may be on the line by then, or its echo (log 10). -/
def execDuplicateIdentity (s : State) : Host.Outcome State Fault Refusal :=
  .next (s.event (fun s => { s with lac.assembler := .waiting }.duplicateReport))

/-! ### The station's own attempts -/

/-- ATTEMPT_START (R8): the first entry in due-list order that may start does. -/
def execAttemptStart (dt : Nat) (s : State) : Host.Outcome State Fault Refusal :=
  .next (s.event (fun s =>
    let s := s.elapse dt
    match s.firstStartable with
    | some p => s.startAttempt p
    | none => s))

/-- The echo of the attempt on the line is judged (R12): the first mismatch ends the attempt as failed; an echo that
matches to the end delimiter ends it as succeeded, at the end of the frame; one that matches so far ends nothing. -/
def State.judgeEcho (echo : List LineBit) (s : State) : State :=
  match s.lac.attempt with
  | none => s
  | some a =>
    match firstMismatch (lineRun a.frame) echo with
    | some n => s.failAttempt a n
    | none => if a.bits ≤ echo.length then (s.elapse (a.startedAt + a.bits - s.now)).succeedAttempt a else s

/-- ATTEMPT_SUCCEEDED (R12): the echo is the whole run that was sent. -/
def execAttemptSucceeded (s : State) : Host.Outcome State Fault Refusal :=
  .next (s.event (fun s =>
    match s.lac.attempt with
    | none => s
    | some a => s.judgeEcho (lineRun a.frame)))

/-- COLLISION (R12): the row acts by the echo it carries. -/
def execCollision (echo : List LineBit) (s : State) : Host.Outcome State Fault Refusal :=
  .next (s.event (State.judgeEcho echo))

/-- ECHO_LOST (R11): the attempt fails where its frame broke off, or for want of an echo within 12 bit times of the rise
of transmit enable. The row stands for the end of the abort delimiter (log 20). -/
def execEchoLost (s : State) : Host.Outcome State Fault Refusal :=
  .next (s.event (fun s =>
    match s.lac.attempt with
    | none => s
    | some a =>
      match s.brokenOff with
      | some n => s.failAttempt a n
      | none => if s.lac.echo then s else s.failAttempt a echoLimit))

end Sys2Proof.Machine
end

