-- ==== Sys2Proof/Machine/Metrics.lean ====
section
/-! DEFINITION. The arithmetic of spec/08_path_metrics.md and the effective values of
spec/05_vendor_profiles_and_model_trim.md: exact products, ceiling and floor quotients, and saturating sums. The
Metrics Unit keeps no state (R146). -/

namespace Sys2Proof.Machine

/-- The ceiling quotient of R146. -/
def ceilDiv (a d : Nat) : Nat := if a % d = 0 then a / d else a / d + 1

/-- The greatest link noise and penalty (R147, R149). -/
def noiseCap : Nat := 65535

/-- The greatest noise of a label, and the budget that admits every label (R151, R153). -/
def noiseLimit : Nat := 1048575

/-- The greatest cost of a label (R150). -/
def costLimit : Nat := 16777215

/-- The greatest dispersion of a label (R152). -/
def dispersionLimit : Int := 8388607

/-- An effective penalty (R75). -/
def effectivePenalty (penalty : Nat) (trim : Int) : Nat :=
  min noiseCap (ceilDiv (penalty * (32 + trim).toNat) 32)

/-- The effective noise factor of a profile (R76). -/
def Profile.factor (p : Profile) : Nat := p.scale * (32 + p.noiseTrim).toNat

/-- The effective pass penalty. -/
def Profile.effPass (p : Profile) : Nat := effectivePenalty p.pass p.penaltyTrim

/-- The effective add penalty. -/
def Profile.effAdd (p : Profile) : Nat := effectivePenalty p.add p.penaltyTrim

/-- The effective drop penalty. -/
def Profile.effDrop (p : Profile) : Nat := effectivePenalty p.drop p.penaltyTrim

/-- Link noise (R147): the advertised load by the factor of the from-node's profile. -/
def linkNoise (load : Nat) (p : Profile) : Nat := min noiseCap (ceilDiv (load * p.factor) 8192)

/-- The cost of a label formed over a link (R150). -/
def addCost (c k : Nat) : Nat := min costLimit (c + k)

/-- The noise of a label formed over a link (R151). -/
def addNoise (n link penalty : Nat) : Nat := min noiseLimit (n + link + penalty)

/-- The dispersion of a label formed over a link (R152). -/
def addDispersion (d x : Int) : Int := max (-dispersionLimit) (min dispersionLimit (d + x))

/-- The margin of a result in unsigned 8.8 fixed point (R155). -/
def margin (budget noise : Nat) : Nat :=
  if budget = noiseLimit then 65535
  else if noise = 0 then 65535
  else min 65535 (budget * 256 / noise)

/-- The dispersion headroom of a result (R156). -/
def headroom (dmin dmax d : Int) : Int := min (d - dmin) (dmax - d)

end Sys2Proof.Machine
end

