-- ==== Sys2Proof/Machine/Operands.lean ====
section
/-! DEFINITION. How owners read the fields of a request (R188, R189), and the checks and clamps that stand at the
head of each request's rule. -/

namespace Sys2Proof.Machine

/-- The transit, enabled and mode bytes are read by bit 0 alone (R188). -/
def readBit (b : Byte) : Bool := b.getLsbD 0

/-- A value brought within a range (R74, R171, R172). -/
def clampTo (lo hi v : Nat) : Nat := max lo (min hi v)

/-- Node id 0 or 65535: invalid wherever a node identifier stands. -/
def badNode (n : Nat) : Bool := n == 0 || n == 65535

/-- A link key outside its limits (R39, R87, R116): from-node 0 or 65535, or from-port above 15. -/
def badKey (k : LinkKey) : Bool := badNode k.node || decide (15 < k.port)

/-- The link key of a request's fields. -/
def readKey (node : BitVec 16) (port : Byte) : LinkKey := ⟨node.toNat, port.toNat⟩

/-! ### IDENTITY and TIMING -/

/-- The identity values stored (R171). -/
def readIdentity (nodeId : BitVec 16) (profileIndex transit portCount : Byte) : Identity :=
  { nodeId := nodeId.toNat, profile := min 15 profileIndex.toNat, transit := readBit transit,
    portCount := clampTo 1 16 portCount.toNat }

/-- Whether R171 clamped a value. -/
def identityClamped (profileIndex portCount : Byte) : Bool :=
  decide (15 < profileIndex.toNat) || portCount.toNat == 0 || decide (16 < portCount.toNat)

/-- The timing values stored (R172). -/
def readTiming (ri joinListen watchTime contestWindow holdLifetime commitLifetime budget ifg : BitVec 16) : Timing :=
  { ri := clampTo 1 255 ri.toNat
    joinListen := clampTo 1 16 joinListen.toNat
    watch := clampTo 10 65535 watchTime.toNat
    contest := clampTo 1 255 contestWindow.toNat
    hold := clampTo 1 255 holdLifetime.toNat
    commit := clampTo 1 65535 commitLifetime.toNat
    budget := clampTo 1 65535 budget.toNat
    ifg := clampTo 16 255 ifg.toNat }

/-- The timing values as sent. -/
def rawTiming (ri joinListen watchTime contestWindow holdLifetime commitLifetime budget ifg : BitVec 16) : Timing :=
  ⟨ri.toNat, joinListen.toNat, watchTime.toNat, contestWindow.toNat, holdLifetime.toNat, commitLifetime.toNat,
   budget.toNat, ifg.toNat⟩

/-! ### TRIM -/

/-- The noise field of a TRIM, bits 1 and 0 (R188). -/
def trimNoiseField (fields : Byte) : Nat := (fields.toNat) % 4

/-- The penalty field of a TRIM, bits 3 and 2 (R188). -/
def trimPenaltyField (fields : Byte) : Nat := (fields.toNat / 4) % 4

/-- A trim after a step field: 0 HOLD, 1 UP, 2 DOWN, held at the limits -8 and +7 (R79). -/
def stepTrim (f : Nat) (t : Int) : Int :=
  if f = 1 then (if t < 7 then t + 1 else t)
  else if f = 2 then (if -8 < t then t - 1 else t)
  else t

/-- A step asked for and not taken (R79). -/
def stepBlocked (f : Nat) (t : Int) : Bool := (f == 1 && decide (7 ≤ t)) || (f == 2 && decide (t ≤ -8))

/-! ### PATH (R189, R119, R120) -/

/-- The fit policy of a code. -/
def readFit (b : Byte) : Option Fit :=
  if b = 0 then some .first else if b = 1 then some .last else if b = 2 then some .best else none

end Sys2Proof.Machine

namespace Sys2Proof

open Machine

/-- The low end of the slot range (R189). -/
def PathBody.readLo (b : PathBody) : Nat := if b.options.getLsbD 1 then b.lo.toNat else 0

/-- The high end of the slot range (R189). -/
def PathBody.readHi (b : PathBody) : Nat := if b.options.getLsbD 1 then b.hi.toNat else 63

/-- The excluded nodes: the slots whose mask bit is set (R189). -/
def PathBody.readNodes (b : PathBody) : List Nat :=
  ([0, 1, 2, 3] : List (Fin 4)).filterMap (fun (k : Fin 4) => if b.nodeMask.getLsbD k then some b.nodes[k].toNat else none)

/-- The excluded link keys: the slots whose mask bit is set (R189). -/
def PathBody.readKeys (b : PathBody) : List LinkKey :=
  ([0, 1, 2, 3] : List (Fin 4)).filterMap
    (fun (k : Fin 4) => if b.keyMask.getLsbD k then some (readKey b.keys[k].1 b.keys[k].2) else none)

/-- dmin after the clamp of R120. -/
def PathBody.readDmin (b : PathBody) : Int := max (-dispersionLimit) b.dmin.toInt

/-- dmax after the clamp of R120. -/
def PathBody.readDmax (b : PathBody) : Int := min dispersionLimit b.dmax.toInt

/-- Whether R120 clamps a field. -/
def PathBody.clamped (b : PathBody) : Bool :=
  decide (16 < b.maxHops.toNat) || decide (noiseLimit < b.budget.toNat)
    || decide (b.dmin.toInt < -dispersionLimit) || decide (dispersionLimit < b.dmax.toInt)

/-- A PATH request outside R119. -/
def PathBody.refused (b : PathBody) : Bool :=
  badNode b.source.toNat || badNode b.destination.toNat
    || b.source == b.destination
    || b.width.toNat == 0 || decide (8 < b.width.toNat)
    || (readFit b.fitPolicy).isNone
    || decide (63 < b.readLo) || decide (63 < b.readHi)
    || decide (b.readHi + 1 < b.readLo + b.width.toNat)
    || b.maxHops.toNat == 0
    || decide (3 < b.priority.toNat)
    || decide (b.readDmax < b.readDmin)
    || b.readNodes.any badNode
    || b.readKeys.any badKey
    || b.readNodes.contains b.source.toNat || b.readNodes.contains b.destination.toNat

/-- The request as taken, after the clamps of R120. -/
def PathBody.request (tag : Tag) (b : PathBody) : PathRequest :=
  { tag := tag
    source := b.source.toNat
    destination := b.destination.toNat
    width := b.width.toNat
    fit := (readFit b.fitPolicy).getD .first
    lo := b.readLo
    hi := b.readHi
    budget := min noiseLimit b.budget.toNat
    dmin := b.readDmin
    dmax := b.readDmax
    maxHops := min 16 b.maxHops.toNat
    priority := b.priority.toNat
    hold := b.options.getLsbD 0
    excludedNodes := b.readNodes
    excludedKeys := b.readKeys
    clamped := b.clamped }

end Sys2Proof
end

