-- ==== Sys2Proof/Machine/Search.lean ====
section
/-! DEFINITION. The Path Search Unit (spec/07_path_search.md): labels, passes, sweeps, the steps of a search, and its
completion. -/

namespace Sys2Proof.Machine

/-! ### Labels (R125) -/

/-- `a` comes before `b` in label order: cost, noise, hop count, node id. -/
def Label.better (a b : Label) : Bool :=
  if a.cost ≠ b.cost then decide (a.cost < b.cost)
  else if a.noise ≠ b.noise then decide (a.noise < b.noise)
  else if a.hops ≠ b.hops then decide (a.hops < b.hops)
  else decide (a.node < b.node)

/-- The least label of a list. -/
def leastLabel : List Label → Option Label
  | [] => none
  | l :: ls =>
    match leastLabel ls with
    | none => some l
    | some m => if m.better l then some m else some l

/-- The label that comes last in label order. -/
def worstLabel : List Label → Option Label
  | [] => none
  | l :: ls =>
    match worstLabel ls with
    | none => some l
    | some m => if l.better m then some m else some l

/-! ### The sweep (R123, R124) -/

/-- The last start slot of the range: hi - w + 1. -/
def PathRequest.lastStart (r : PathRequest) : Nat := r.hi + 1 - r.width

/-- The first window of the sweep. -/
def PathRequest.firstWindow (r : PathRequest) : Nat :=
  match r.fit with
  | .first => r.lo
  | .best => r.lo
  | .last => r.lastStart

/-- The window after `s` in the order of the fit policy; `none` after the last. -/
def PathRequest.windowAfter (r : PathRequest) (s : Nat) : Option Nat :=
  match r.fit with
  | .last => if r.lo < s then some (s - 1) else none
  | _ => if s < r.lastStart then some (s + 1) else none

/-- The best result so far after a pass result under BEST (R124). -/
def betterResult (old : Option PassResult) (new : PassResult) : PassResult :=
  match old with
  | none => new
  | some o => if new.cost < o.cost then new else if new.cost = o.cost ∧ new.noise < o.noise then new else o

/-- The sweep goes on to the next window, or to the completion. -/
def Context.nextWindow (c : Context) : Context :=
  match c.request.windowAfter c.window with
  | some w => { c with window := w, phase := .passStart }
  | none => { c with phase := .completing }

/-- A pass ends with no result. -/
def Context.endPassEmpty (c : Context) : Context := c.nextWindow

/-- A pass ends with a result (R123, R124). -/
def Context.endPassWith (r : PassResult) (c : Context) : Context :=
  match c.request.fit with
  | .best => { c with bestResult := some (betterResult c.bestResult r) }.nextWindow
  | _ => { c with bestResult := some r, phase := .completing }

/-! ### Rebuilding the path (R133) -/

/-- The links from the source to the node that `key` leaves, then `key` itself, then `acc`: each earlier link is the
arrival link in the tree entry of the node from which the following link leaves. -/
def rebuildPath (tree : List Label) : Nat → LinkKey → Nat → List (LinkKey × Nat) → List (LinkKey × Nat)
  | 0, key, reached, acc => (key, reached) :: acc
  | n + 1, key, reached, acc =>
    match tree.find? (fun l => l.node == key.node) with
    | some ⟨_, _, _, _, _, some k⟩ => rebuildPath tree n k key.node ((key, reached) :: acc)
    | _ => (key, reached) :: acc

/-- The pass result of a best arrival (R133). -/
def Context.passResult (c : Context) (b : Label) : PassResult :=
  { window := c.window
    path := match b.arrival with
      | some k => rebuildPath c.tree c.tree.length k b.node []
      | none => []
    cost := b.cost
    noise := b.noise
    dispersion := b.dispersion
    hops := b.hops
    pruned := c.passPruned }

/-! ### The start of a pass (R127) -/

/-- A pass begins: the window's tables are emptied. -/
def Context.clearPass (c : Context) : Context :=
  { c with passes := c.passes + 1, frontier := [], tree := [], bestArrival := none, passPruned := false,
           phase := .selecting }

/-- The step that begins a pass (R127). -/
def State.startPass (s : State) (c : Context) : Context :=
  let c := c.clearPass
  match Table.lookup NodeRecord.id c.request.source s.tv.nodes with
  | none => c.endPassEmpty
  | some r =>
    let noise := (profileAt c.snapshot r.profile).effAdd
    if c.request.budget < noise then c.endPassEmpty
    else { c with frontier := [⟨c.request.source, 0, noise, 0, 0, none⟩] }

/-! ### Extension (R129 to R132) -/

/-- The pass and the search are pruned. -/
def Context.prune (c : Context) : Context := { c with passPruned := true, anyPruned := true }

/-- A label for the destination (R131). -/
def Context.arrive (l : Label) (c : Context) : Context :=
  if l.dispersion < c.request.dmin ∨ c.request.dmax < l.dispersion then c
  else
    match c.bestArrival with
    | none => { c with bestArrival := some l }
    | some b => if l.better b then { c with bestArrival := some l } else c

/-- A label for another node meets the frontier (R132). -/
def Context.reach (l : Label) (c : Context) : Context :=
  match Table.lookup Label.node l.node c.frontier with
  | some o => if l.better o then { c with frontier := Table.put Label.node l c.frontier } else c
  | none =>
    if c.frontier.length < Config.frontierPlaces then { c with frontier := Table.put Label.node l c.frontier }
    else
      match worstLabel c.frontier with
      | none => c.prune
      | some w =>
        if w.better l then c.prune
        else { c with frontier := Table.put Label.node l (Table.erase Label.node w.node c.frontier) }.prune

/-- The link is skipped when a node is extended over it (R129). -/
def State.skipsLink (s : State) (c : Context) (n : Label) (l : LinkRecord) (farNode : NodeRecord) : Bool :=
  !l.verified
    || c.request.excludedKeys.contains l.key
    || c.request.excludedNodes.contains l.toNode
    || c.tree.any (fun x => x.node == l.toNode)
    || l.toNode == c.request.source
    || (!farNode.transit && l.toNode != c.request.destination)
    || !s.usable l c.window c.request.width
    || decide (c.request.maxHops < n.hops + 1)

/-- The label formed over a link from the settled label `n` (R130). -/
def Context.formLabel (c : Context) (n : Label) (fromNode farNode : NodeRecord) (l : LinkRecord) : Label :=
  let p := profileAt c.snapshot farNode.profile
  { node := l.toNode
    cost := addCost n.cost l.cost
    noise := addNoise n.noise (linkNoise l.noise (profileAt c.snapshot fromNode.profile))
      (if l.toNode = c.request.destination then p.effDrop else p.effPass)
    dispersion := addDispersion n.dispersion l.dispersion
    hops := n.hops + 1
    arrival := some l.key }

/-- One link of the node being settled is extended (R129, R130). A to-node with no record is skipped: a VERIFIED link
always has one (R33). -/
def State.extendLink (s : State) (n : Label) (fromNode : NodeRecord) (c : Context) (l : LinkRecord) : Context :=
  match Table.lookup NodeRecord.id l.toNode s.tv.nodes with
  | none => c
  | some farNode =>
    if s.skipsLink c n l farNode then c
    else
      let x := c.formLabel n fromNode farNode l
      if c.request.budget < x.noise then c
      else if l.toNode = c.request.destination then c.arrive x
      else c.reach x

/-- The links of a settled node are extended in ascending from-port order (R129). -/
def State.extend (s : State) (n : Label) (c : Context) : Context :=
  match Table.lookup NodeRecord.id n.node s.tv.nodes with
  | none => c
  | some fromNode => (linkSet n.node s.tv.links).foldl (fun c l => s.extendLink n fromNode c l) c

/-- The least frontier label is taken (R128): its node is settled and extended, or the label is discarded because the
tree is full. -/
def State.settle (s : State) (n : Label) (c : Context) : Context :=
  let c := { c with frontier := Table.erase Label.node n.node c.frontier }
  if Config.treePlaces ≤ c.tree.length then c.prune
  else s.extend n { c with tree := c.tree ++ [n] }

/-- A selection step (R128). -/
def State.select (s : State) (c : Context) : Context :=
  match leastLabel c.frontier, c.bestArrival with
  | none, none => c.endPassEmpty
  | none, some b => c.endPassWith (c.passResult b)
  | some n, none => s.settle n c
  | some n, some b => if b.better n then c.endPassWith (c.passResult b) else s.settle n c

/-! ### Completion (R140 to R144) -/

/-- A link of the result passes revalidation (R141). -/
def State.linkStands (s : State) (window width : Nat) (x : LinkKey × Nat) : Bool :=
  match Table.lookup LinkRecord.code x.1.code s.tv.links with
  | some l => l.key == x.1 && l.toNode == x.2 && l.verified && s.usable l window width
  | none => false

/-- The flags of a completion (R142). -/
def State.pathFlags (s : State) (c : Context) (pruned created : Bool) : PathFlags :=
  { pruned := pruned, moved := s.tv.counter != c.startCounter, viewIncomplete := s.tv.viewIncomplete,
    isolated := s.lac.isolated, overflow := s.hu.overflow, created := created }

/-- The items of a reported result (R144, R155, R156). -/
def PassResult.report (r : PassResult) (q : PathRequest) (number : BitVec 8) : PathReport :=
  { holdNumber := number, window := r.window, width := q.width, cost := r.cost, noise := r.noise,
    dispersion := r.dispersion, hops := r.hops, margin := margin q.budget r.noise,
    headroom := headroom q.dmin q.dmax r.dispersion, path := r.path }

/-- The completion of a search posts `c`, its request leaves the queue, and the context is discarded. -/
def State.endSearch (c : Completion) (s : State) : State :=
  { s.post c with psu.queue := s.psu.queue.tail, psu.context := none }

/-- NO_PATH (R140 steps 4 and 6). -/
def State.endNoPath (c : Context) (cause : Cause) (s : State) : State :=
  s.endSearch ⟨.path, c.request.tag, .noPath, cause, c.request.clamped,
    .noPath (s.pathFlags c c.anyPruned false) c.passes⟩

/-- A result is posted with a status (R144). -/
def State.endWith (c : Context) (r : PassResult) (status : Status) (cause : Cause) (flags : PathFlags)
    (number : BitVec 8) (s : State) : State :=
  s.endSearch ⟨.path, c.request.tag, status, cause, c.request.clamped,
    .result flags c.passes (r.report c.request number)⟩

/-- A FOUND result with the HOLD option asks the HU for the own hold (R92, R143). -/
def State.endHeld (c : Context) (r : PassResult) (s : State) : State :=
  let flags := s.pathFlags c r.pruned false
  if s.sc.station = .muted then s.endWith c r .foundUnheld .muted flags 0
  else
    match s.freeSlot with
    | none => s.endWith c r .foundUnheld .slotsFull flags 0
    | some i =>
      (s.createHold i c.request.tag c.request.priority r.window c.request.width (r.path.map Prod.fst)).endWith c r
        .found .none { flags with created := true } s.nextNumber

/-- The completion step (R140). -/
def State.completeSearch (c : Context) (s : State) : State :=
  match c.bestResult with
  | none => s.endNoPath c .none
  | some r =>
    if r.path.all (s.linkStands r.window c.request.width) then
      if c.request.hold then s.endHeld c r
      else s.endWith c r .found .none (s.pathFlags c r.pruned false) 0
    else s.endWith c r .stale .none (s.pathFlags c r.pruned false) 0

/-- The search ends in place of its next step (R138). -/
def State.abortSearch (c : Context) (s : State) : State :=
  (s.endSearch (abortedCompletion c.request c.passes)).completeAbort c.abortTag

/-- A step of the search in flight (R126): `phase` is the step that the event is. A search whose request carries the
abort mark ends in its place (R138); a search whose next step is another takes none (log 5). -/
def State.searchStep (phase : SearchPhase) (act : Context → State → State) (s : State) : State :=
  match s.psu.context with
  | none => s
  | some c => if c.abortTag.isSome then s.abortSearch c else if c.phase = phase then act c s else s

/-- The context of a search that starts (R122). -/
def State.newContext (s : State) (r : PathRequest) : Context :=
  { request := r, abortTag := none, snapshot := s.pf.profiles, startCounter := s.tv.counter, window := r.firstWindow,
    passes := 0, frontier := [], tree := [], bestArrival := none, passPruned := false, anyPruned := false,
    bestResult := none, phase := .passStart }

/-- The search of the head of the queue starts, or completes NO_PATH with cause UNKNOWN_END (R122). -/
def State.startSearch (s : State) : State :=
  match s.psu.context, s.psu.queue with
  | none, r :: _ =>
    let c := s.newContext r
    if s.knows r.source && s.knows r.destination then { s with psu.context := some c }
    else s.endNoPath c .unknownEnd
  | _, _ => s

end Sys2Proof.Machine
end

