-- ==== Sys2Proof/Machine/SearchSteps.lean ====
section
/-! DEFINITION. The steps of a path search as events (R122, R126, R138). -/

namespace Sys2Proof.Machine

/-- The search goes on with this context. -/
def State.setContext (c : Context) (s : State) : State := { s with psu.context := some c }

/-- SEARCH_START (R122). -/
def execSearchStart (s : State) : Host.Outcome State Fault Refusal := .next (s.event State.startSearch)

/-- PASS_START (R127). -/
def execPassStart (s : State) : Host.Outcome State Fault Refusal :=
  .next (s.event (State.searchStep .passStart (fun c s => s.setContext (s.startPass c))))

/-- SELECTION_STEP (R128). -/
def execSelectionStep (s : State) : Host.Outcome State Fault Refusal :=
  .next (s.event (State.searchStep .selecting (fun c s => s.setContext (s.select c))))

/-- SEARCH_COMPLETION (R140). -/
def execSearchCompletion (s : State) : Host.Outcome State Fault Refusal :=
  .next (s.event (State.searchStep .completing State.completeSearch))

/-- SEARCH_ABORT_END (R138). -/
def execSearchAbortEnd (s : State) : Host.Outcome State Fault Refusal :=
  .next (s.event (fun s =>
    match s.psu.context with
    | some c => if c.abortTag.isSome then s.abortSearch c else s
    | none => s))

end Sys2Proof.Machine
end

