-- ==== Sys2Proof/Machine/Timers.lean ====
section
/-! DEFINITION. The events of the part's timers. Each row is the moment its timer reaches the limit, so the clock moves
on by what the timer has still to run (log 4). -/

namespace Sys2Proof.Machine

/-- The SC counts the listen period; at its end the station is ANNOUNCING (R175). -/
def State.countListen (s : State) : State :=
  if s.sc.station = .listening then
    let s := { s with sc.listen := s.sc.listen + 1 }
    if s.sc.listen = s.timing.joinListen then { s with sc.station := .announcing } else s
  else s

/-- What the blocks do at an RI tick (R173): the budget is reloaded (R7), the view ages (R34), the debt rises (R57), the
listen period is counted (R175), and the due check runs (R59). -/
def State.tickBlocks (s : State) : State :=
  { s with lac.budget := s.fullBudget }.ageView.tickDebt.countListen.dueCheck

/-- RI_TICK (R173). -/
def execRiTick (s : State) : Host.Outcome State Fault Refusal :=
  .next (s.event (fun s =>
    match s.sc.riTimer with
    | none => s
    | some e => { s.elapse (s.riBits - e) with sc.riTimer := some 0 }.tickBlocks))

/-- SILENCE_WATCH_EXPIRY (R18). -/
def execSilenceWatchExpiry (s : State) : Host.Outcome State Fault Refusal :=
  .next (s.event (fun s =>
    match s.lac.watch with
    | .running e => { s.elapse (s.watchBits - e) with lac.watch := .expired }.setIsolated true
    | _ => s))

/-- CONTEST_EXPIRY (R94). -/
def execContestExpiry (slot : Fin 8) (s : State) : Host.Outcome State Fault Refusal :=
  .next (s.event (fun s =>
    match s.slot slot with
    | .live (.announced e _) _ _ => (s.elapse (s.contestBits - e)).endContest slot
    | _ => s))

/-- The lifetime that a LIVE slot's record has still to run. -/
def State.lifetimeLeft (s : State) (n : BitVec 8) : Nat := ((s.ownHold n).bind Hold.lifetime).getD 0

/-- HOLD_LIFETIME_EXPIRY (R101). -/
def execHoldLifetimeExpiry (slot : Fin 8) (s : State) : Host.Outcome State Fault Refusal :=
  .next (s.event (fun s =>
    match s.slot slot with
    | .live .held n _ => (s.elapse (s.lifetimeLeft n)).expireHold slot
    | .live .committed n _ => (s.elapse (s.lifetimeLeft n)).expireHold slot
    | _ => s))

/-- PEER_LIFETIME_EXPIRY (R108): the record is removed without a frame. -/
def execPeerLifetimeExpiry (origin : BitVec 16) (number : Byte) (s : State) : Host.Outcome State Fault Refusal :=
  .next (s.event (fun s =>
    match Table.lookup Hold.code (holdCode origin.toNat number) s.hu.holds with
    | none => s
    | some h =>
      if h.own then s else (s.elapse (h.lifetime.getD 0)).removeHold (holdCode origin.toNat number)))

end Sys2Proof.Machine
end

