-- ==== Sys2Proof/Machine/Clock.lean ====
section
/-! DEFINITION. What happens while no command waits: one bit time passes, and the part's own events whose conditions
then hold are put in the queue (log 1, log 2, log 3). -/

namespace Sys2Proof.Machine

/-- The RI timer has reached the RI (R173). -/
def State.riEvents (s : State) : List Instr :=
  match s.sc.riTimer with
  | some e => if s.riBits ≤ e then [.riTick] else []
  | none => []

/-- The silence watch has reached the watch time (R18). -/
def State.watchEvents (s : State) : List Instr :=
  match s.lac.watch with
  | .running e => if s.watchBits ≤ e then [.silenceWatchExpiry] else []
  | _ => []

/-- The contest timer or the running lifetime of slot `i` is at its end (R94, R101). -/
def State.slotEvents (s : State) (i : Fin 8) : List Instr :=
  match s.slot i with
  | .live (.announced e _) _ _ => if s.contestBits ≤ e then [.contestExpiry i] else []
  | .live .held n _ => if s.lifetimeLeft n = 0 then [.holdLifetimeExpiry i] else []
  | .live .committed n _ => if s.lifetimeLeft n = 0 then [.holdLifetimeExpiry i] else []
  | _ => []

/-- Peer records whose lifetime has run out (R108). -/
def State.peerEvents (s : State) : List Instr :=
  (s.hu.holds.filter (fun h => !h.own && h.lifetime == some 0)).map
    (fun h => .peerLifetimeExpiry (BitVec.ofNat 16 h.origin) h.number)

/-- An entry may start (R8), or the abort delimiter of an attempt whose echo was lost has gone out (R11). -/
def State.lineEvents (s : State) : List Instr :=
  match s.lac.attempt with
  | none => if s.firstStartable.isSome then [.attemptStart 0] else []
  | some a =>
    match s.echoLoss a with
    | some n => if a.startedAt + n + abortBits ≤ s.now then [.echoLost] else []
    | none => []

/-- The next step of the path search (R126, R138, R145). -/
def State.searchEvents (s : State) : List Instr :=
  match s.psu.context with
  | none => if s.psu.queue.isEmpty then [] else [.searchStart]
  | some c =>
    if c.abortTag.isSome then [.searchAbortEnd]
    else
      match c.phase with
      | .passStart => [.passStart]
      | .selecting => [.selectionStep]
      | .completing => [.searchCompletion]

/-- The part's own events that fall now. -/
def State.ownEvents (s : State) : List Instr :=
  s.riEvents ++ s.watchEvents ++ allSlots.flatMap s.slotEvents ++ s.peerEvents ++ s.lineEvents ++ s.searchEvents

/-- `x` among keyed events in rising order of the keys. -/
def placeByKey (x : Nat × Instr) : List (Nat × Instr) → List (Nat × Instr)
  | [] => [x]
  | y :: ys => if x.1 < y.1 then x :: y :: ys else y :: placeByKey x ys

/-- Events of one bit time in the order of the free value `Config.tieKey` (log 3). -/
def tieOrder (now : Nat) (l : List Instr) : List Instr :=
  ((l.mapIdx (fun i c => (Config.tieKey now i, c))).foldl (fun acc x => placeByKey x acc) []).map Prod.snd

/-- One bit time in which no command waits (log 1). While the reset line is held nothing runs. -/
def State.idleTick (s : State) : State :=
  if s.resetHeld then s
  else
    let s := s.elapse 1
    { s with pending := tieOrder s.now s.ownEvents }

end Sys2Proof.Machine
end

