-- ==== Sys2Proof/Machine/Configuration.lean ====
section
/-! DEFINITION. The requests of configuration: IDENTITY and TIMING (R171, R172), PROFILE and TRIM (R74, R79). -/

namespace Sys2Proof.Machine

/-- IDENTITY at its owner (R170, R171): the backoff generator is loaded with the node id (R13). -/
def State.ownIdentity (tag : Tag) (nodeId : BitVec 16) (profileIndex transit portCount : Byte) (s : State) : State :=
  if s.sc.station ≠ .unconfigured then s.post (.plain .identity tag .sequence)
  else if badNode nodeId.toNat then s.post (.range .identity tag)
  else
    let v := readIdentity nodeId profileIndex transit portCount
    { s with sc.identity := some v, sc.station := .identified, lac.lfsr := nodeId }.post
      (.carrying .identity tag (if identityClamped profileIndex portCount then .clamped else .ok) (.identity v))

/-- IDENTITY (R171). -/
def execIdentity (tag : Tag) (nodeId : BitVec 16) (profileIndex transit portCount : Byte) (s : State) :
    Host.Outcome State Fault Refusal :=
  .next (s.request (State.ownIdentity tag nodeId profileIndex transit portCount))

/-- TIMING at its owner (R172): `v` the values stored, `raw` the values sent. -/
def State.ownTiming (tag : Tag) (v raw : Timing) (s : State) : State :=
  if s.sc.station ≠ .identified then s.post (.plain .timing tag .sequence)
  else
    { s with sc.timing := some v, sc.station := .configured }.post
      (.carrying .timing tag (if v = raw then .ok else .clamped) (.timing v))

/-- TIMING (R172). -/
def execTiming (tag : Tag) (ri joinListen watchTime contestWindow holdLifetime commitLifetime budget ifg : BitVec 16)
    (s : State) : Host.Outcome State Fault Refusal :=
  .next (s.request (State.ownTiming tag
    (readTiming ri joinListen watchTime contestWindow holdLifetime commitLifetime budget ifg)
    (rawTiming ri joinListen watchTime contestWindow holdLifetime commitLifetime budget ifg)))

/-- Profile `i` becomes `p`. -/
def State.setProfile (i : Nat) (p : Profile) (s : State) : State :=
  { s with pf.profiles := s.pf.profiles.setIfInBounds i p }

/-- The profile PROFILE writes: the scale clamped to 1 to 1023, both trims 0 (R74). -/
def readProfile (scale pass add drop : BitVec 16) : Profile :=
  ⟨clampTo 1 1023 scale.toNat, pass.toNat, add.toNat, drop.toNat, 0, 0⟩

/-- PROFILE at its owner (R74). -/
def State.ownProfile (tag : Tag) (index scale pass add drop : BitVec 16) (s : State) : State :=
  if s.sc.station ≠ .configured then s.post (.plain .profile tag .sequence)
  else if 15 < index.toNat then s.post (.range .profile tag)
  else
    let p := readProfile scale pass add drop
    (s.setProfile index.toNat p).post
      (.carrying .profile tag (if p.scale = scale.toNat then .ok else .clamped) (.profile index.toNat p))

/-- PROFILE (R74). -/
def execProfile (tag : Tag) (index scale pass add drop : BitVec 16) (s : State) : Host.Outcome State Fault Refusal :=
  .next (s.request (State.ownProfile tag index scale pass add drop))

/-- A profile with both trims stepped (R79). -/
def Profile.stepped (fields : Byte) (p : Profile) : Profile :=
  { p with noiseTrim := stepTrim (trimNoiseField fields) p.noiseTrim,
           penaltyTrim := stepTrim (trimPenaltyField fields) p.penaltyTrim }

/-- The effective values a TRIM completion gives (R80). -/
def trimItems (index : Nat) (p : Profile) : Items :=
  .trim index p.noiseTrim p.penaltyTrim p.factor p.effPass p.effAdd p.effDrop

/-- TRIM at its owner (R79, R80). -/
def State.ownTrim (tag : Tag) (index fields : Byte) (s : State) : State :=
  if s.sc.station = .unconfigured ∨ s.sc.station = .identified then s.post (.plain .trim tag .sequence)
  else if 15 < index.toNat ∨ trimNoiseField fields = 3 ∨ trimPenaltyField fields = 3 then s.post (.range .trim tag)
  else
    let p := profileAt s.pf.profiles index.toNat
    let blocked := stepBlocked (trimNoiseField fields) p.noiseTrim || stepBlocked (trimPenaltyField fields) p.penaltyTrim
    (s.setProfile index.toNat (p.stepped fields)).post
      (.carrying .trim tag (if blocked then .clamped else .ok) (trimItems index.toNat (p.stepped fields)))

/-- TRIM (R79). -/
def execTrim (tag : Tag) (index fields : Byte) (s : State) : Host.Outcome State Fault Refusal :=
  .next (s.request (State.ownTrim tag index fields))

end Sys2Proof.Machine
end

