-- ==== Sys2Proof/Machine/HoldRequests.lean ====
section
/-! DEFINITION. HOLD COMMIT (R98), HOLD RELEASE (R100), POLL (R115) and BLOCK (R87). -/

namespace Sys2Proof.Machine

/-- Requests taken from LISTENING on; otherwise NOT_JOINED. -/
def State.whenJoined (kind : RequestKind) (tag : Tag) (s : State) (act : State → State) : State :=
  if s.sc.station.joined then act s else s.post (.plain kind tag .notJoined)

/-- HOLD COMMIT on the slot that holds the number (R98). -/
def State.commitSlot (tag : Tag) (i : Fin 8) (s : State) : State :=
  match s.slot i with
  | .live (.pending none) n t => s.setSlot i (.live (.pending (some tag)) n t)
  | .live (.announced e none) n t => s.setSlot i (.live (.announced e (some tag)) n t)
  | .live .held n t => (s.setSlot i (.live (.committing tag) n t)).makeDue (holdPlace i) .commit 1
  | .live .committed _ _ => s.post (.plain .holdCommit tag .ok)
  | .live _ _ _ => s.post (.plain .holdCommit tag .inProgress)
  | .closing n _ o _ => s.post (.carrying .holdCommit tag o.status (.holdNumber n))
  | .ended n _ o => s.post (.carrying .holdCommit tag o.status (.holdNumber n))
  | .free => s.post (.plain .holdCommit tag .notFound)

/-- HOLD COMMIT at its owner (R98). -/
def State.ownHoldCommit (tag : Tag) (number : Byte) (s : State) : State :=
  s.whenJoined .holdCommit tag (fun s =>
    match s.findSlot number with
    | some i => s.commitSlot tag i
    | none => s.post (.plain .holdCommit tag .notFound))

/-- HOLD_COMMIT (R98). -/
def execHoldCommit (tag : Tag) (number : Byte) (s : State) : Host.Outcome State Fault Refusal :=
  .next (s.request (State.ownHoldCommit tag number))

/-- A LIVE hold that no receiver can hold is freed at once; any other closes with a RELEASE due (R100). -/
def State.releaseLive (i : Fin 8) (sub : Substate) (n : BitVec 8) (t : Tag) (s : State) : State :=
  match sub with
  | .pending _ =>
    if s.announceOnLine i then
      (s.endHold i .released (.closing n t .released false)).makeDue (holdPlace i) .release 1
    else (s.withdrawEntry (holdPlace i)).endHold i .released .free
  | _ => (s.endHold i .released (.closing n t .released false)).makeDue (holdPlace i) .release 1

/-- HOLD RELEASE on the slot that holds the number (R100); its own completion comes last. -/
def State.releaseSlot (tag : Tag) (i : Fin 8) (s : State) : State :=
  match s.slot i with
  | .live sub n t =>
    (s.releaseLive i sub n t).post (.carrying .holdRelease tag .released (.holdNumber n))
  | .closing n _ o _ => s.post (.carrying .holdRelease tag o.status (.holdNumber n))
  | .ended n _ o => s.post (.carrying .holdRelease tag o.status (.holdNumber n))
  | .free => s.post (.plain .holdRelease tag .notFound)

/-- HOLD RELEASE at its owner (R100). -/
def State.ownHoldRelease (tag : Tag) (number : Byte) (s : State) : State :=
  s.whenJoined .holdRelease tag (fun s =>
    match s.findSlot number with
    | some i => s.releaseSlot tag i
    | none => s.post (.plain .holdRelease tag .notFound))

/-- HOLD_RELEASE (R100). -/
def execHoldRelease (tag : Tag) (number : Byte) (s : State) : Host.Outcome State Fault Refusal :=
  .next (s.request (State.ownHoldRelease tag number))

/-- What POLL lists of a slot (R115). -/
def Slot.pollItem : Slot → Option (BitVec 8 × HoldOutcome × Tag)
  | .ended n t o => some (n, o, t)
  | _ => none

/-- An ENDED slot becomes FREE. -/
def Slot.polled : Slot → Slot
  | .ended _ _ _ => .free
  | x => x

/-- POLL at its owner (R115). -/
def State.ownPoll (tag : Tag) (s : State) : State :=
  s.whenJoined .poll tag (fun s =>
    { s with hu.slots := s.hu.slots.map Slot.polled }.post
      (.carrying .poll tag .ok (.ended (s.hu.slots.toList.filterMap Slot.pollItem))))

/-- POLL (R115). -/
def execPoll (tag : Tag) (s : State) : Host.Outcome State Fault Refusal := .next (s.request (State.ownPoll tag))

/-- The mask of a key becomes `m`: an entry is written, or freed when `m` is empty; a change counts 1 (R86, R87). -/
def State.setBlock (k : LinkKey) (m : SlotMap) (s : State) : State :=
  if s.blockMask k = m then s
  else
    { s with hu.blocks :=
        if m = 0 then Table.erase Block.code k.code s.hu.blocks else Table.put Block.code ⟨k, m⟩ s.hu.blocks }.count 1

/-- A BLOCK that is taken (R87): operation 0 SET, 1 CLEAR. -/
def State.applyBlock (tag : Tag) (k : LinkKey) (operation : Byte) (m : SlotMap) (s : State) : State :=
  let known := (Table.lookup Block.code k.code s.hu.blocks).isSome
  let m' := if operation = 0 then s.blockMask k ||| m else s.blockMask k &&& ~~~m
  if !known && m' != 0 && decide (Config.blockPlaces ≤ s.hu.blocks.length) then s.post (.plain .block tag .tableFull)
  else (s.setBlock k m').post (.carrying .block tag .ok (.block k m'))

/-- BLOCK at its owner (R87). -/
def State.ownBlock (tag : Tag) (k : LinkKey) (operation : Byte) (m : SlotMap) (s : State) : State :=
  if s.sc.station = .unconfigured then s.post (.plain .block tag .sequence)
  else if badKey k ∨ (operation ≠ 0 ∧ operation ≠ 1) then s.post (.range .block tag)
  else s.applyBlock tag k operation m

/-- BLOCK_SET (R87). -/
def execBlockSet (tag : Tag) (node : BitVec 16) (port operation : Byte) (mask : SlotMap) (s : State) :
    Host.Outcome State Fault Refusal :=
  .next (s.request (State.ownBlock tag (readKey node port) operation mask))

/-- BLOCK_CLEAR (R87). -/
def execBlockClear (tag : Tag) (node : BitVec 16) (port operation : Byte) (mask : SlotMap) (s : State) :
    Host.Outcome State Fault Refusal :=
  .next (s.request (State.ownBlock tag (readKey node port) operation mask))

end Sys2Proof.Machine
end

