-- ==== Sys2Proof/Machine/JoinLeave.lean ====
section
/-! DEFINITION. JOIN (R174) and LEAVE (R165, R180, R182). -/

namespace Sys2Proof.Machine

/-- JOIN at its owner (R174). -/
def State.ownJoin (tag : Tag) (s : State) : State :=
  if s.sc.station ≠ .configured then s.post (.plain .join tag .sequence)
  else
    let s := s.joinAds.insertOwn s.ownLinkSet
    let s := { s with lac.budget := s.fullBudget, lac.watch := .running 0, sc.riTimer := some 0, sc.listen := 0,
                      sc.joinWaiting := some tag }
    { s.makeDue solicitPlace .solicit 1 with sc.station := .listening }

/-- JOIN (R174). -/
def execJoin (tag : Tag) (s : State) : Host.Outcome State Fault Refusal := .next (s.request (State.ownJoin tag))

/-- LEAVE taken in LISTENING, ANNOUNCING or OPERATING (R180). The ADS's entry-present flag stays as it stands, although
the withdraw ADVERT may take over its entry (log 34, DESIGN CHOICE: R58 names no such event). -/
def State.beginLeave (tag : Tag) (s : State) : State :=
  let s := (s.completeJoin .aborted).flushPaths.leaveHolds
  let s := (s.withdrawEntry solicitPlace).makeDue advertPlace .withdraw 0
  { s with sc.leaveWaiting := some tag, sc.station := .leaving }

/-- LEAVE taken in MUTED (R182). -/
def State.leaveMuted (tag : Tag) (s : State) : State :=
  let s := s.flushPaths.leaveHolds
  { s with sc.leaveWaiting := some tag }.finishLeave .ok

/-- LEAVE at its owner (R165, R180, R182). -/
def State.ownLeave (tag : Tag) (s : State) : State :=
  match s.sc.station with
  | .listening => s.beginLeave tag
  | .announcing => s.beginLeave tag
  | .operating => s.beginLeave tag
  | .muted => s.leaveMuted tag
  | .leaving => s.post (.plain .leave tag .inProgress)
  | _ => s.post (.plain .leave tag .notJoined)

/-- LEAVE (R180). -/
def execLeave (tag : Tag) (s : State) : Host.Outcome State Fault Refusal := .next (s.request (State.ownLeave tag))

end Sys2Proof.Machine
end

