-- ==== Sys2Proof/Machine/Link.lean ====
section
/-! DEFINITION. The transactions that are no request: FETCH (R161), a malformed header (R159) and the release of select
(R158); and the reset line (R20, R41, R54, R72, R83, R114, R139, R169, R183). -/

namespace Sys2Proof.Machine

/-- What a FETCH sends: the oldest completion, or the empty marker (R161). -/
def State.fetchAnswer (s : State) : List Byte :=
  match s.clp.completions with
  | [] => [emptyMarker]
  | c :: _ => c.bytes

/-- The queue after a FETCH of which `n` answer bytes went out: the entry leaves with its last byte (R161). -/
def State.afterFetch (s : State) (n : Nat) : List Completion :=
  match s.clp.completions with
  | [] => []
  | c :: rest => if c.bytes.length ≤ n then rest else c :: rest

/-- FETCH (R161). -/
def execFetch (bytes : Nat) (s : State) : Host.Outcome State Fault Refusal :=
  .next (s.transact (fun s =>
    { s with clp.completions := s.afterFetch bytes }.answer (s.fetchAnswer.take bytes)))

/-- MALFORMED (R159, R160): the acceptance byte follows the header directly and nothing is left behind. A header that
is not malformed has no decision here: its transaction is abandoned before the body is complete. -/
def execMalformed (kind subject : Byte) (length : BitVec 16) (s : State) : Host.Outcome State Fault Refusal :=
  .next (s.transact (fun s => s.answer (if headerMalformed kind subject length then [malformedByte] else [])))

/-- SELECT_RELEASE (R158, R169): the transaction ends, whatever point it has reached. -/
def execSelectRelease (s : State) : Host.Outcome State Fault Refusal :=
  .next { s with clp.select := false, clp.port := .idle, events := if s.resetHeld then s.events else s.events + 1 }

/-- RESET_LINE_ASSERT (R183): every block takes its reset values; the input pins, with the echo that goes on until
receive activity falls (R11), and the waiting commands stand. -/
def execResetLineAssert (s : State) : Host.Outcome State Fault Refusal :=
  .next { State.reset with
    resetHeld := true, lac.activity := s.lac.activity, lac.echo := s.lac.echo, clp.select := s.clp.select
    pending := s.pending }

/-- RESET_LINE_RELEASE (R20, R169): the part runs from its reset values; a port whose select is asserted waits for its
release. -/
def execResetLineRelease (s : State) : Host.Outcome State Fault Refusal :=
  .next (if s.resetHeld then
    { s with resetHeld := false, clp.port := if s.clp.select then .waitRelease else .idle }
  else s)

end Sys2Proof.Machine
end

