-- ==== Sys2Proof/Machine/PathRequests.lean ====
section
/-! DEFINITION. PATH (R118 to R121) and ABORT (R137). -/

namespace Sys2Proof.Machine

/-- PATH at its owner: the station state (R118), the checks (R119), the clamps (R120), the queue (R121). -/
def State.ownPath (tag : Tag) (b : PathBody) (s : State) : State :=
  if s.sc.station ≠ .operating ∧ s.sc.station ≠ .muted then s.post (.plain .path tag .notJoined)
  else if b.refused then s.post (.range .path tag)
  else { s with psu.queue := s.psu.queue ++ [b.request tag] }

/-- The path queue has no place for another request (R160). -/
def State.pathQueueFull (s : State) : Bool := decide (Config.pathPlaces ≤ s.psu.queue.length)

/-- PATH (R118). -/
def execPath (tag : Tag) (body : PathBody) (s : State) : Host.Outcome State Fault Refusal :=
  .next (s.transact (fun s => s.takeRequest (s.queueFull || s.pathQueueFull) (State.ownPath tag body)))

/-- A list without the first request that carries a tag, and that request. -/
def takeTagged (tag : Tag) : List PathRequest → Option (PathRequest × List PathRequest)
  | [] => none
  | r :: rs =>
    if r.tag = tag then some (r, rs) else (takeTagged tag rs).map (fun x => (x.1, r :: x.2))

/-- The queued requests, not in flight, that ABORT searches: `kept` stays ahead of them (R137). -/
def State.abortQueued (tag sought : Tag) (kept queued : List PathRequest) (s : State) : State :=
  match takeTagged sought queued with
  | some (r, rest) =>
    ({ s with psu.queue := kept ++ rest }.post (abortedCompletion r 0)).post (.plain .abort tag .ok)
  | none => s.post (.plain .abort tag .notFound)

/-- ABORT at its owner (R137): the request in flight is the oldest; once marked it is passed over. -/
def State.ownAbort (tag sought : Tag) (s : State) : State :=
  match s.psu.context, s.psu.queue with
  | some c, r :: rest =>
    if r.tag = sought ∧ c.abortTag = none then { s with psu.context := some { c with abortTag := some tag } }
    else s.abortQueued tag sought [r] rest
  | _, q => s.abortQueued tag sought [] q

/-- ABORT (R137). -/
def execAbort (tag sought : Tag) (s : State) : Host.Outcome State Fault Refusal :=
  .next (s.request (State.ownAbort tag sought))

end Sys2Proof.Machine
end

