-- ==== Sys2Proof/Machine/PortRequests.lean ====
section
/-! DEFINITION. PORT SET (R44) and PORT TRACE in its two forms (R46, R47). -/

namespace Sys2Proof.Machine

/-- The record PORT SET writes: the five values, the trace state kept; an admin cost of 0 is written as 1 (R44). -/
def PortRecord.written (r : PortRecord) (enabled : Byte) (cost noise dispersion : BitVec 16) (used : SlotMap) :
    PortRecord :=
  { r with enabled := readBit enabled, cost := max 1 cost.toNat, noise := noise.toNat, dispersion := dispersion.toInt,
           used := used }

/-- PORT SET at its owner (R43, R44): the completion is the last of the event (R50). -/
def State.ownPortSet (tag : Tag) (port enabled : Byte) (cost noise dispersion : BitVec 16) (used : SlotMap)
    (s : State) : State :=
  s.onPort .portSet tag port.toNat (fun s =>
    let r := (s.port port.toNat).written enabled cost noise dispersion used
    (s.changePort port.toNat r).post
      (.carrying .portSet tag (if cost = 0 then .clamped else .ok) (.port port.toNat r)))

/-- PORT_SET (R44). -/
def execPortSet (tag : Tag) (port enabled : Byte) (cost noise dispersion : BitVec 16) (used : SlotMap) (s : State) :
    Host.Outcome State Fault Refusal :=
  .next (s.request (State.ownPortSet tag port enabled cost noise dispersion used))

/-- A trace state is recorded on a port, and the completion gives it (R46, R47). -/
def State.recordTrace (tag : Tag) (p : Nat) (t : Trace) (s : State) : State :=
  (s.changePort p { s.port p with trace := t }).post (.carrying .portTrace tag .ok (.trace p t))

/-- PORT TRACE with a word at its owner (R45, R46). -/
def State.ownPortTrace (tag : Tag) (port : Byte) (word : BitVec 32) (s : State) : State :=
  s.onPort .portTrace tag port.toNat (fun s =>
    match readTraceWord word with
    | none => s.post (.carrying .portTrace tag .traceInvalid (.trace port.toNat (s.port port.toNat).trace))
    | some (node, farPort) =>
      s.recordTrace tag port.toNat (if node = s.ownId then .looped else .heard node farPort))

/-- PORT_TRACE (R46). -/
def execPortTrace (tag : Tag) (port : Byte) (word : BitVec 32) (s : State) : Host.Outcome State Fault Refusal :=
  .next (s.request (State.ownPortTrace tag port word))

/-- PORT TRACE in the loss-of-trace form at its owner (R47). -/
def State.ownPortTraceLoss (tag : Tag) (port : Byte) (s : State) : State :=
  s.onPort .portTrace tag port.toNat (fun s => s.recordTrace tag port.toNat .dark)

/-- PORT_TRACE_LOSS (R47). -/
def execPortTraceLoss (tag : Tag) (port : Byte) (s : State) : Host.Outcome State Fault Refusal :=
  .next (s.request (State.ownPortTraceLoss tag port))

end Sys2Proof.Machine
end

