-- ==== Sys2Proof/Machine/Queries.lean ====
section
/-! DEFINITION. The queries (R38, R39, R53, R116) and STATUS (R167). They change nothing but the control link. -/

namespace Sys2Proof.Machine

/-- The NODE record a query finds: EXACT or NEXT (R38). -/
def State.findNode (s : State) (nextMode : Bool) (node : Nat) : Option NodeRecord :=
  if nextMode then Table.next NodeRecord.id node s.tv.nodes else Table.lookup NodeRecord.id node s.tv.nodes

/-- The answer of QUERY node (R38). -/
def State.nodeAnswer (s : State) (tag : Tag) (nextMode : Bool) (node : Nat) : Completion :=
  if node = 65535 ∨ (nextMode = false ∧ node = 0) then .range (.query .node) tag
  else
    match s.findNode nextMode node with
    | none => .plain (.query .node) tag .notFound
    | some r =>
      .carrying (.query .node) tag .ok
        (.node r (linkSet r.id s.tv.links).length ((linkSet r.id s.tv.links).filter LinkRecord.verified).length)

/-- QUERY_NODE (R38). -/
def execQueryNode (tag : Tag) (node : BitVec 16) (mode : Byte) (s : State) : Host.Outcome State Fault Refusal :=
  .next (s.request (fun s => s.whenJoined (.query .node) tag
    (fun s => s.post (s.nodeAnswer tag (readBit mode) node.toNat))))

/-- The LINK record a query finds: EXACT or NEXT, in key order (R39). -/
def State.findLink (s : State) (nextMode : Bool) (k : LinkKey) : Option LinkRecord :=
  if nextMode then Table.next LinkRecord.code k.code s.tv.links else Table.lookup LinkRecord.code k.code s.tv.links

/-- The answer of QUERY link (R39). -/
def State.linkAnswer (s : State) (tag : Tag) (nextMode : Bool) (k : LinkKey) : Completion :=
  if 15 < k.port ∨ k.node = 65535 ∨ (nextMode = false ∧ k.node = 0) then .range (.query .link) tag
  else
    match s.findLink nextMode k with
    | none => .plain (.query .link) tag .notFound
    | some r => .carrying (.query .link) tag .ok (.link r)

/-- QUERY_LINK (R39). -/
def execQueryLink (tag : Tag) (node : BitVec 16) (port mode : Byte) (s : State) : Host.Outcome State Fault Refusal :=
  .next (s.request (fun s => s.whenJoined (.query .link) tag
    (fun s => s.post (s.linkAnswer tag (readBit mode) (readKey node port)))))

/-- The answer of QUERY port (R53). -/
def State.portAnswer (s : State) (tag : Tag) (p : Nat) : Completion :=
  if 15 < p ∨ s.portCount ≤ p then .range (.query .port) tag
  else .carrying (.query .port) tag .ok (.portQuery p (s.port p) (s.adjacency p) (s.ownLinkVerified p))

/-- QUERY_PORT (R53). -/
def execQueryPort (tag : Tag) (port : Byte) (s : State) : Host.Outcome State Fault Refusal :=
  .next (s.request (fun s => s.whenJoined (.query .port) tag (fun s => s.post (s.portAnswer tag port.toNat))))

/-- The contest timer or lifetime remaining of a LIVE slot, in milliseconds (R116). The contest timer reports what has
passed of the contest window (log 31, DESIGN CHOICE: R93 and R94 differ on its direction). -/
def slotTimerMs (slot : Slot) (record : Option Hold) : Option Nat :=
  match slot with
  | .live (.announced e _) _ _ => some (reportMs e)
  | .live (.pending _) _ _ => none
  | .live _ _ _ => (record.bind Hold.lifetime).map reportMs
  | _ => none

/-- The record of a LIVE slot. -/
def State.slotRecord (s : State) (slot : Slot) : Option Hold :=
  match slot with
  | .live _ n _ => s.ownHold n
  | _ => none

/-- The answer of QUERY own hold in the hold form (R116). -/
def State.holdAnswer (s : State) (tag : Tag) (n : BitVec 8) : Completion :=
  match s.findSlot n with
  | none => .plain (.query .ownHold) tag .notFound
  | some i =>
    .carrying (.query .ownHold) tag .ok
      (.ownHold i.val (s.slot i) (s.slotRecord (s.slot i)) (slotTimerMs (s.slot i) (s.slotRecord (s.slot i))))

/-- QUERY_OWN_HOLD (R116). -/
def execQueryOwnHold (tag : Tag) (number : Byte) (s : State) : Host.Outcome State Fault Refusal :=
  .next (s.request (fun s => s.whenJoined (.query .ownHold) tag (fun s => s.post (s.holdAnswer tag number))))

/-- The live records whose link list contains a key. -/
def State.holdsOn (s : State) (k : LinkKey) : List Hold := s.hu.holds.filter (fun h => h.links.contains k)

/-- The held-slot map of a key (R116). -/
def State.heldMap (s : State) (k : LinkKey) : SlotMap :=
  (s.holdsOn k).foldl (fun m h => m ||| windowMask h.start h.width) 0

/-- The answer of QUERY own hold in the link form (R116). -/
def State.linkHoldsAnswer (s : State) (tag : Tag) (k : LinkKey) : Completion :=
  if badKey k then .range (.query .ownHold) tag
  else .carrying (.query .ownHold) tag .ok (.linkHolds (s.blockMask k) (s.heldMap k) (s.holdsOn k).length)

/-- QUERY_OWN_HOLD_LINK (R116). -/
def execQueryOwnHoldLink (tag : Tag) (node : BitVec 16) (port : Byte) (s : State) : Host.Outcome State Fault Refusal :=
  .next (s.request (fun s => s.whenJoined (.query .ownHold) tag
    (fun s => s.post (s.linkHoldsAnswer tag (readKey node port)))))

/-- The slot is LIVE. -/
def Slot.isLive : Slot → Bool
  | .live _ _ _ => true
  | _ => false

/-- The slot is CLOSING. -/
def Slot.isClosing : Slot → Bool
  | .closing _ _ _ _ => true
  | _ => false

/-- What STATUS reports (R167). -/
def State.statusReport (s : State) : StatusReport :=
  { station := s.sc.station
    conditions := s.conditions
    marks := s.clp.marks
    debt := s.ads.debt
    budget := s.lac.budget
    nodes := s.tv.nodes.length
    links := s.tv.links.length
    live := s.hu.slots.toList.countP Slot.isLive
    closing := s.hu.slots.toList.countP Slot.isClosing
    ended := s.hu.slots.toList.countP Slot.isEnded
    peerHolds := s.peerHolds
    blocks := s.hu.blocks.length
    queue := s.psu.queue.length
    completions := s.clp.completions.length
    reservations := s.clp.reservations
    counter := s.tv.counter }

/-- The answer of STATUS (R167). -/
def State.statusAnswer (s : State) (tag : Tag) : Completion :=
  if s.sc.station.joined then .carrying .status tag .ok (.status s.statusReport)
  else .carrying .status tag .notJoined (.stationOnly s.sc.station s.conditions s.clp.marks)

/-- STATUS (R167): the report, and then all four marks are cleared. -/
def execStatus (tag : Tag) (s : State) : Host.Outcome State Fault Refusal :=
  .next (s.request (fun s => { s.post (s.statusAnswer tag) with clp.marks := Conditions.none }))

end Sys2Proof.Machine
end

