-- ==== Sys2Proof/Machine/Dispatch.lean ====
section
/-! DEFINITION. One arm for every command: a direct call of its meaning. -/

namespace Sys2Proof.Machine

def exec (i : Instr) (s : State) : Host.Outcome State Fault Refusal :=
  match i with
  | .identity tag nodeId profileIndex transit portCount => Sys2Proof.Machine.execIdentity tag nodeId profileIndex transit portCount s
  | .timing tag ri joinListen watchTime contestWindow holdLifetime commitLifetime budget ifg => Sys2Proof.Machine.execTiming tag ri joinListen watchTime contestWindow holdLifetime commitLifetime budget ifg s
  | .profile tag index scale pass add drop => Sys2Proof.Machine.execProfile tag index scale pass add drop s
  | .join tag => Sys2Proof.Machine.execJoin tag s
  | .leave tag => Sys2Proof.Machine.execLeave tag s
  | .portSet tag port enabled cost noise dispersion used => Sys2Proof.Machine.execPortSet tag port enabled cost noise dispersion used s
  | .portTrace tag port word => Sys2Proof.Machine.execPortTrace tag port word s
  | .portTraceLoss tag port => Sys2Proof.Machine.execPortTraceLoss tag port s
  | .path tag body => Sys2Proof.Machine.execPath tag body s
  | .abort tag sought => Sys2Proof.Machine.execAbort tag sought s
  | .holdCommit tag number => Sys2Proof.Machine.execHoldCommit tag number s
  | .holdRelease tag number => Sys2Proof.Machine.execHoldRelease tag number s
  | .poll tag => Sys2Proof.Machine.execPoll tag s
  | .blockSet tag node port operation mask => Sys2Proof.Machine.execBlockSet tag node port operation mask s
  | .blockClear tag node port operation mask => Sys2Proof.Machine.execBlockClear tag node port operation mask s
  | .trim tag index fields => Sys2Proof.Machine.execTrim tag index fields s
  | .queryNode tag node mode => Sys2Proof.Machine.execQueryNode tag node mode s
  | .queryLink tag node port mode => Sys2Proof.Machine.execQueryLink tag node port mode s
  | .queryPort tag port => Sys2Proof.Machine.execQueryPort tag port s
  | .queryOwnHold tag number => Sys2Proof.Machine.execQueryOwnHold tag number s
  | .queryOwnHoldLink tag node port => Sys2Proof.Machine.execQueryOwnHoldLink tag node port s
  | .status tag => Sys2Proof.Machine.execStatus tag s
  | .fetch bytes => Sys2Proof.Machine.execFetch bytes s
  | .malformed kind subject length => Sys2Proof.Machine.execMalformed kind subject length s
  | .selectRelease => Sys2Proof.Machine.execSelectRelease s
  | .resetLineAssert => Sys2Proof.Machine.execResetLineAssert s
  | .resetLineRelease => Sys2Proof.Machine.execResetLineRelease s
  | .receiveActivityRise dt => Sys2Proof.Machine.execReceiveActivityRise dt s
  | .receiveActivityFall dt => Sys2Proof.Machine.execReceiveActivityFall dt s
  | .frameDropped received ending => Sys2Proof.Machine.execFrameDropped received ending s
  | .advertReceived origin body => Sys2Proof.Machine.execAdvertReceived origin body s
  | .solicitReceived origin body => Sys2Proof.Machine.execSolicitReceived origin body s
  | .announceReceived origin body => Sys2Proof.Machine.execAnnounceReceived origin body s
  | .objectReceived origin body => Sys2Proof.Machine.execObjectReceived origin body s
  | .commitReceived origin body => Sys2Proof.Machine.execCommitReceived origin body s
  | .releaseReceived origin body => Sys2Proof.Machine.execReleaseReceived origin body s
  | .duplicateIdentity => Sys2Proof.Machine.execDuplicateIdentity s
  | .attemptStart dt => Sys2Proof.Machine.execAttemptStart dt s
  | .attemptSucceeded => Sys2Proof.Machine.execAttemptSucceeded s
  | .collision echo => Sys2Proof.Machine.execCollision echo s
  | .echoLost => Sys2Proof.Machine.execEchoLost s
  | .riTick => Sys2Proof.Machine.execRiTick s
  | .silenceWatchExpiry => Sys2Proof.Machine.execSilenceWatchExpiry s
  | .contestExpiry slot => Sys2Proof.Machine.execContestExpiry slot s
  | .holdLifetimeExpiry slot => Sys2Proof.Machine.execHoldLifetimeExpiry slot s
  | .peerLifetimeExpiry origin number => Sys2Proof.Machine.execPeerLifetimeExpiry origin number s
  | .searchStart => Sys2Proof.Machine.execSearchStart s
  | .passStart => Sys2Proof.Machine.execPassStart s
  | .selectionStep => Sys2Proof.Machine.execSelectionStep s
  | .searchCompletion => Sys2Proof.Machine.execSearchCompletion s
  | .searchAbortEnd => Sys2Proof.Machine.execSearchAbortEnd s

end Sys2Proof.Machine
end

