-- ==== Sys2Proof/Safety.lean ====
section
/-! DEFINITION. What the statements speak of: when the control link takes a request and what an answer changes, and
what a safe run keeps. The part never stops, so a run is safe when every state of it meets the invariants below. -/

namespace Sys2Proof.Machine

/-! ### The control link's part of a request (R158, R160, R162) -/

/-- The command is one of the requests of spec/09_the_control_link.md section 9.3. -/
def requestOf : Instr → Bool
  | .identity _ _ _ _ _ => true
  | .timing _ _ _ _ _ _ _ _ _ => true
  | .profile _ _ _ _ _ _ => true
  | .join _ => true
  | .leave _ => true
  | .portSet _ _ _ _ _ _ _ => true
  | .portTrace _ _ _ => true
  | .portTraceLoss _ _ => true
  | .path _ _ => true
  | .abort _ _ => true
  | .holdCommit _ _ => true
  | .holdRelease _ _ => true
  | .poll _ => true
  | .blockSet _ _ _ _ _ => true
  | .blockClear _ _ _ _ _ => true
  | .trim _ _ _ => true
  | .queryNode _ _ _ => true
  | .queryLink _ _ _ _ => true
  | .queryPort _ _ => true
  | .queryOwnHold _ _ => true
  | .queryOwnHoldLink _ _ _ => true
  | .status _ => true
  | _ => false

/-- A transaction can begin: the reset line is not held, and select has been released since the last one (R158). -/
abbrev State.portOpen (s : State) : Prop := s.resetHeld = false ∧ s.clp.port = .idle

/-- The control link accepts a request: completions and reservations leave a place (R160). -/
abbrev State.takes (s : State) : Prop :=
  s.portOpen ∧ s.clp.completions.length + s.clp.reservations < 16

/-- The part has sent these bytes besides filler; nothing else has changed. -/
def State.replied (sent : List Byte) (s : State) : State :=
  { s with events := s.events + 1, clp.select := true, clp.port := .answering sent }

/-- A request was accepted and its completion is still to come: one reservation more. -/
def State.accepted (s : State) : State :=
  { s with events := s.events + 1, clp.select := true, clp.port := .answering [0x61#8],
           clp.reservations := s.clp.reservations + 1 }

/-- A request was accepted and completed in the same event: one completion more, at the tail. -/
def State.answered (c : Completion) (s : State) : State :=
  { s with events := s.events + 1, clp.select := true, clp.port := .answering [0x61#8],
           clp.completions := s.clp.completions ++ [c] }

/-! ### Requests answered at once in the states that do not take them (section 9.3, R165) -/

/-- The kind and tag of a request, and the status it completes with in a state in which its owner does not take it;
`none` where the owner takes it, and for the commands that are no request. -/
def notTaken (st : Station) : Instr → Option (RequestKind × Tag × Status)
  | .identity tag _ _ _ _ => if st = .unconfigured then none else some (.identity, tag, .sequence)
  | .timing tag _ _ _ _ _ _ _ _ => if st = .identified then none else some (.timing, tag, .sequence)
  | .profile tag _ _ _ _ _ => if st = .configured then none else some (.profile, tag, .sequence)
  | .join tag => if st = .configured then none else some (.join, tag, .sequence)
  | .leave tag =>
    if st = .leaving then some (.leave, tag, .inProgress)
    else if st = .unconfigured ∨ st = .identified ∨ st = .configured then some (.leave, tag, .notJoined) else none
  | .portSet tag _ _ _ _ _ _ => if st = .unconfigured then some (.portSet, tag, .sequence) else none
  | .portTrace tag _ _ => if st = .unconfigured then some (.portTrace, tag, .sequence) else none
  | .portTraceLoss tag _ => if st = .unconfigured then some (.portTrace, tag, .sequence) else none
  | .path tag _ => if st = .operating ∨ st = .muted then none else some (.path, tag, .notJoined)
  | .holdCommit tag _ => if st.joined then none else some (.holdCommit, tag, .notJoined)
  | .holdRelease tag _ => if st.joined then none else some (.holdRelease, tag, .notJoined)
  | .poll tag => if st.joined then none else some (.poll, tag, .notJoined)
  | .blockSet tag _ _ _ _ => if st = .unconfigured then some (.block, tag, .sequence) else none
  | .blockClear tag _ _ _ _ => if st = .unconfigured then some (.block, tag, .sequence) else none
  | .trim tag _ _ => if st = .unconfigured ∨ st = .identified then some (.trim, tag, .sequence) else none
  | .queryNode tag _ _ => if st.joined then none else some (.query .node, tag, .notJoined)
  | .queryLink tag _ _ _ => if st.joined then none else some (.query .link, tag, .notJoined)
  | .queryPort tag _ => if st.joined then none else some (.query .port, tag, .notJoined)
  | .queryOwnHold tag _ => if st.joined then none else some (.query .ownHold, tag, .notJoined)
  | .queryOwnHoldLink tag _ _ => if st.joined then none else some (.query .ownHold, tag, .notJoined)
  | _ => none

/-! ### What LEAVE and muting do to the slots, and what they post (R111, R112, R136, R178, R180) -/

/-- The HOLD COMMITs that wait in the slots, in ascending slot number, completed with an outcome. -/
def State.commitsEnded (s : State) (outcome : HoldOutcome) : List Completion :=
  allSlots.filterMap (fun i =>
    match s.slot i with
    | .live sub n _ => sub.commitTag.map (fun c => ⟨.holdCommit, c, outcome.status, .none, false, .holdNumber n⟩)
    | _ => none)

/-- The completions of the path queue's flush: the request in flight, the ABORT that waits for it, then the queue. -/
def State.pathsFlushed (s : State) : List Completion :=
  match s.psu.context, s.psu.queue with
  | some c, r :: rest =>
    [abortedCompletion r c.passes] ++ (c.abortTag.map (fun t => Completion.plain .abort t .ok)).toList
      ++ rest.map (fun r => abortedCompletion r 0)
  | _, l => l.map (fun r => abortedCompletion r 0)

/-- A slot after LEAVE (R112). -/
def State.slotLeft (s : State) (i : Fin 8) : Slot :=
  match s.slot i with
  | .free => .free
  | .live (.pending _) n t => if s.announceOnLine i then .closing n t .released false else .free
  | .live _ n t => .closing n t .released false
  | .closing n t o _ => .closing n t o false
  | .ended _ _ _ => .free

/-- A slot after MUTED entry (R111). -/
def Slot.muted : Slot → Slot
  | .live _ n t => .ended n t .failed
  | .closing _ _ _ _ => .free
  | x => x

/-- The marks after the end of a membership, which clears the conditions (R40, R71, R113, R166, R181). -/
def State.marksLeft (muted : Bool) (s : State) : Conditions :=
  ⟨s.clp.marks.isolated || s.lac.isolated, muted, s.clp.marks.viewIncomplete || s.tv.viewIncomplete,
    s.clp.marks.overflow || s.hu.overflow⟩

/-- The hold table without the records of LIVE own holds. -/
def State.holdsLeft (s : State) : List Hold :=
  s.hu.holds.filter (fun h => allSlots.all (fun i =>
    !((s.slot i).isLive && (s.slot i).number == some h.number && h.origin == s.ownId)))

/-! ### Frames heard (R16, R17, R19) -/

/-- A good frame from another origin reaches its block: the part runs, receive activity is high and is not the echo, the
station has joined, and the origin and the length are those of a good frame. -/
abbrev State.hears (s : State) (origin : BitVec 16) (body : List Byte) : Prop :=
  s.resetHeld = false ∧ s.lac.activity = true ∧ s.lac.echo = false ∧ s.sc.station.joined = true
    ∧ validNode origin.toNat = true
    ∧ body.length ≤ 512 ∧ origin.toNat ≠ s.ownId

/-- The state in which the block takes the frame: the assembler waits again, and ISOLATED has ended. -/
def State.heard (s : State) : State :=
  { s with events := s.events + 1, lac.assembler := .waiting }.endIsolation

/-- The incoming hold of a frame (R104). -/
def incomingHold (k : FrameKind) (origin : BitVec 16) (b : HoldBody) : Hold :=
  { origin := origin.toNat, number := b.number, own := false, priority := b.priority,
    established := decide (k ≠ .announce),
    committed := decide (k = .commit) || (decide (k = .object) && b.committed),
    start := b.start, width := b.width, links := b.links, lifetime := none }

/-- The record with key `code` is gone from the hold table: one change, and HOLDS_OVERFLOW, which a freed peer place
clears, with its mark (R88, R107). -/
def State.peerGone (code : Nat) (s : State) : State :=
  { s with
    hu.holds := s.hu.holds.filter (fun h => h.code != code)
    hu.overflow := false
    clp.marks.overflow := s.clp.marks.overflow || s.hu.overflow
    tv.counter := s.tv.counter + 1#32 }

/-- The own record with number `n` is gone, and its slot is `x` (R95, R100, R101). -/
def State.ownGone (i : Fin 8) (n : BitVec 8) (x : Slot) (s : State) : State :=
  { s with
    hu.holds := s.hu.holds.filter (fun h => h.code != holdCode s.ownId n)
    hu.slots := s.hu.slots.set i x
    tv.counter := s.tv.counter + 1#32 }

/-- A keyed table with `x` in it, in place of what stood under its key. -/
def insertSorted {α : Type} (key : α → Nat) (x : α) (l : List α) : List α :=
  l.filter (fun y => decide (key y < key x)) ++ [x] ++ l.filter (fun y => decide (key x < key y))

/-- The command is the receipt of a good frame of kind `k`; a withdraw ADVERT is received as an ADVERT. -/
def frameRow (k : FrameKind) (origin : BitVec 16) (body : List Byte) : Instr :=
  match k with
  | .advert => .advertReceived origin body
  | .withdraw => .advertReceived origin body
  | .solicit => .solicitReceived origin body
  | .announce => .announceReceived origin body
  | .object => .objectReceived origin body
  | .commit => .commitReceived origin body
  | .release => .releaseReceived origin body

/-- The command is the receipt of a hold frame of kind `k`. -/
def holdRow (k : FrameKind) (origin : BitVec 16) (body : List Byte) : Option Instr :=
  match k with
  | .announce => some (.announceReceived origin body)
  | .object => some (.objectReceived origin body)
  | .commit => some (.commitReceived origin body)
  | _ => none

/-! ### Supersession (R103) -/

/-- The holds that the replacement of `node`'s link set retires, by the link table of this state: committed, with a key
of that node, and lit on every link (R103). -/
def State.retires (s : State) (node : Nat) (h : Hold) : Bool :=
  h.committed && h.links.any (fun k => k.node == node) && s.isSuperseded h

/-- The own record of a number is among the holds that go. -/
def State.ownGoes (s : State) (gone : Hold → Bool) (n : BitVec 8) : Bool :=
  s.hu.holds.any (fun h => gone h && h.own && h.number == n)

/-- A peer record is among the holds that go. -/
def State.peerGoes (s : State) (gone : Hold → Bool) : Bool := s.hu.holds.any (fun h => gone h && !h.own)

/-- `t` has what the holds `gone` of `s` leave behind without a frame (R103, R107): the records go, the slot of an own
one is ENDED with outcome SUPERSEDED and an OBJECT due in its place is withdrawn, and a freed peer place clears
HOLDS_OVERFLOW, with its mark. -/
structure State.Retired (s t : State) (gone : Hold → Bool) : Prop where
  holds : t.hu.holds = s.hu.holds.filter (fun h => !gone h)
  slots : ∀ i : Fin 8, t.slot i =
    match s.slot i with
    | .live sub n tag => if s.ownGoes gone n then .ended n tag .superseded else .live sub n tag
    | x => x
  places : ∀ i : Fin 8, t.entry (holdPlace i) =
    if (s.slot i).isLive && (s.slot i).number.any (s.ownGoes gone)
      && (s.entry (holdPlace i)).any (fun e => e.kind == .object)
    then (s.withdrawEntry (holdPlace i)).entry (holdPlace i) else s.entry (holdPlace i)
  overflow : t.hu.overflow = (s.hu.overflow && !s.peerGoes gone)
  marks : t.clp.marks.overflow = (s.clp.marks.overflow || (s.hu.overflow && s.peerGoes gone))
  kept : t.hu = { s.hu with holds := t.hu.holds, slots := t.hu.slots, overflow := t.hu.overflow }

/-! ### Place 8 (R58, R59) -/

/-- Place 8 holds ADVERTs of the ADS alone, or nothing. -/
abbrev State.advertsOnly (s : State) : Prop :=
  ∀ e, s.entry 8 = some e → e.kind = .advert ∧ ∀ f, e.followOn = some f → f.1 = .advert

/-- A new entry for an ADVERT of class `c`, made due in the event that is being taken. -/
def State.newAdvert (s : State) (c : Fin 3) : Entry := ⟨.advert, c, s.events, 0, none, none, false⟩

/-- Place 8 after an ADVERT of class `c` was made due (R58): a new entry; the entry there, its class raised; or, with its
attempt on the line, a follow-on of the more urgent class. -/
def State.advertMade (s : State) (c : Fin 3) : Option Entry :=
  match s.entry 8 with
  | none => some (s.newAdvert c)
  | some e =>
    if s.onLine 8 then
      some { e with followOn := some (.advert, (e.followOn.map (fun f => min f.2 c)).getD c), withdrawn := false }
    else some { e with cls := min e.cls c }

/-- The table of R59: the class of the ADVERT that the due check makes due with no entry present. -/
def owedClass (st : Station) (announced : Nat) (mark : ContentMark) (debt : Int) : Option (Fin 3) :=
  if debt = 8 then some 0
  else if st = .announcing ∧ announced < 2 then some 1
  else if mark = .waiting then some 1
  else if 1 ≤ debt then some 2
  else none

/-! ### The end of an attempt (R7, R11, R12) -/

/-- The attempt `a` is over, its last delimiter bit ending `bits` after its start: the time has passed, the line is
free and the bytes are charged. -/
def State.attemptOver (a : Attempt) (bits : Nat) (s : State) : State :=
  let s := { s with events := s.events + 1 }.elapse (a.startedAt + bits - s.now)
  { s with lac.attempt := none, lac.budget := s.lac.budget - (bits + 7) / 8 }

/-- The attempt `a` is over, cut after `n` bit times of its frame: the abort delimiter of eight bit times went out in
place of the rest, and then the line is free and the bytes of both are charged (R7, R11, R12). -/
def State.attemptAborted (a : Attempt) (n : Nat) (s : State) : State :=
  { s.attemptOver a (n + 8) with lac.sending := some ⟨a.startedAt, a.frame, some n⟩ }

/-- The bit times of its frame that have gone out when the attempt `a` on the line is cut (R15): up to now, but where its
echo is lost, up to the point at which the abort delimiter took over (R11). -/
def State.sentBefore (s : State) (a : Attempt) : Nat :=
  match s.lac.sending.bind Transmission.cut with
  | some n => n
  | none => if s.lac.echo = false ∧ a.startedAt + 12 ≤ s.now then 12 else s.now - a.startedAt

/-- The command ends the attempt `a` on the line as failed, and `u` is the state then, before the place is settled: a
mismatch in the echo (R12), an echo that does not rise within 12 bit times, or the loss of the echo where it broke the
frame off, as an early fall does (R11). -/
def State.failsBy (s : State) (a : Attempt) (c : Instr) (u : State) : Prop :=
  (∃ echo n, c = .collision echo ∧ firstMismatch (lineRun a.frame) echo = some n ∧ u = s.attemptAborted a n) ∨
  (∃ n, c = .echoLost ∧ u = s.attemptAborted a n ∧
    (s.lac.sending.bind Transmission.cut = some n ∨
      (s.lac.sending.bind Transmission.cut = none ∧ s.lac.echo = false ∧ n = 12)))

/-- The command brings back the whole frame of the attempt `a`, every bit matched (R12). -/
def succeedsBy (a : Attempt) (c : Instr) : Prop :=
  c = .attemptSucceeded ∨ c = .collision (lineRun a.frame)

/-! ### Requests that wait (R162) -/

/-- Whether a HOLD COMMIT waits in a slot, as a count. -/
def Slot.waiting : Slot → Nat
  | .live sub _ _ => sub.commitTag.toList.length
  | _ => 0

/-- The accepted requests whose completion is not yet posted: queued PATHs, an ABORT at a marked search, HOLD
COMMITs, a JOIN and a LEAVE. -/
def State.waitingRequests (s : State) : Nat :=
  s.psu.queue.length + ((s.psu.context.bind Context.abortTag).toList.length)
    + (allSlots.map (fun i => (s.slot i).waiting)).sum + s.sc.joinWaiting.toList.length
    + s.sc.leaveWaiting.toList.length

/-- R162: reservations count the waiting requests, entries and reservations stay within 16, and a search in flight
has its request at the head of the queue. -/
abbrev State.Accounts (s : State) : Prop :=
  s.clp.reservations = s.waitingRequests ∧ s.clp.completions.length + s.clp.reservations ≤ 16
    ∧ (s.psu.context.isSome → s.psu.queue ≠ [])

/-! ### The station state and what goes with it (R71, R113, R170, R173, R180, R181) -/

/-- The withdraw ADVERT stands in an entry, as its kind or its follow-on. -/
def Entry.withdraws (e : Entry) : Bool := e.kind == .withdraw || e.followOn.any (fun f => f.1 == .withdraw)

/-- The blocks hold nothing of a membership. -/
abbrev State.left (s : State) : Prop :=
  s.tv.nodes = [] ∧ s.tv.links = [] ∧ s.tv.viewIncomplete = false ∧ s.hu.holds = [] ∧ s.hu.overflow = false
    ∧ (∀ i : Fin 8, s.slot i = .free) ∧ s.ads = Ads.atReset ∧ (∀ p : Fin 10, s.entry p = none)
    ∧ s.lac.attempt = none ∧ s.lac.budget = 0 ∧ s.lac.isolated = false ∧ s.sc.listen = 0

/-- The state of every block agrees with the station state. -/
structure State.Agree (s : State) : Prop where
  identity : s.sc.identity = none ↔ s.sc.station = .unconfigured
  timing : s.sc.timing = none ↔ s.sc.station = .unconfigured ∨ s.sc.station = .identified
  ticks : s.sc.riTimer.isSome = s.sc.station.joined
  watch : s.lac.watch ≠ .off ↔ s.sc.station.joined = true
  muted : s.sc.muted = true ↔ s.sc.station = .muted
  leaving : s.sc.leaveWaiting.isSome = true ↔ s.sc.station = .leaving
  joining : s.sc.joinWaiting.isSome = true ↔ s.sc.station = .listening ∨ s.sc.station = .announcing
  notJoined : s.sc.station.joined = false → s.left
  noSearch : s.sc.station ≠ .operating → s.sc.station ≠ .muted → s.psu.queue = [] ∧ s.psu.context = none
  noHold : s.sc.station ≠ .operating → ∀ i : Fin 8, (s.slot i).isLive = false
  allFree : s.sc.station = .listening ∨ s.sc.station = .announcing → ∀ i : Fin 8, s.slot i = .free
  silent : s.sc.station = .muted → s.lac.attempt = none ∧ ∀ p : Fin 10, s.entry p = none
  withdraw : s.sc.station ≠ .leaving →
    (∀ p : Fin 10, (s.entry p).any Entry.withdraws = false)
      ∧ s.lac.attempt.any (fun a => a.kind == .withdraw) = false

/-! ### Registers within their ranges -/

/-- A profile within the ranges of R73. -/
abbrev Profile.inRange (p : Profile) : Prop :=
  1 ≤ p.scale ∧ p.scale ≤ 1023 ∧ p.pass ≤ 65535 ∧ p.add ≤ 65535 ∧ p.drop ≤ 65535
    ∧ -8 ≤ p.noiseTrim ∧ p.noiseTrim ≤ 7 ∧ -8 ≤ p.penaltyTrim ∧ p.penaltyTrim ≤ 7

/-- A trace state within the ranges of R42. -/
def Trace.inRange : Trace → Bool
  | .heard node port => validNode node && decide (port ≤ 15)
  | _ => true

/-- A port record within the ranges of R42. -/
abbrev PortRecord.inRange (r : PortRecord) : Prop :=
  1 ≤ r.cost ∧ r.cost ≤ 65535 ∧ r.noise ≤ 65535 ∧ -32768 ≤ r.dispersion ∧ r.dispersion ≤ 32767
    ∧ r.trace.inRange = true

/-- Identity values within the ranges of R171. -/
abbrev Identity.inRange (v : Identity) : Prop :=
  1 ≤ v.nodeId ∧ v.nodeId ≤ 65534 ∧ v.profile ≤ 15 ∧ 1 ≤ v.portCount ∧ v.portCount ≤ 16

/-- Timing values within the ranges of R172. -/
abbrev Timing.inRange (v : Timing) : Prop :=
  (1 ≤ v.ri ∧ v.ri ≤ 255) ∧ (1 ≤ v.joinListen ∧ v.joinListen ≤ 16) ∧ (10 ≤ v.watch ∧ v.watch ≤ 65535)
    ∧ (1 ≤ v.contest ∧ v.contest ≤ 255) ∧ (1 ≤ v.hold ∧ v.hold ≤ 255) ∧ (1 ≤ v.commit ∧ v.commit ≤ 65535)
    ∧ (1 ≤ v.budget ∧ v.budget ≤ 65535) ∧ (16 ≤ v.ifg ∧ v.ifg ≤ 255)

/-- Every register of the SC, PT, PF, ADS and LAC lies within the range the spec gives it. -/
structure State.Ranges (s : State) : Prop where
  identity : ∀ v, s.sc.identity = some v → v.inRange
  timing : ∀ v, s.sc.timing = some v → v.inRange
  listen : s.sc.listen ≤ 16
  listening : s.sc.station = .listening → s.sc.listen < s.timing.joinListen
  ports : ∀ i : Fin 16, s.pt.ports[i].inRange
  profiles : ∀ i : Fin 16, s.pf.profiles[i].inRange
  debt : -8 ≤ s.ads.debt ∧ s.ads.debt ≤ 8
  fresh : s.ads.freshCount ≤ 2
  announced : s.ads.announceCount ≤ 2
  announcing : s.sc.station = .announcing → s.ads.announceCount < 2
  unannounced : s.sc.station = .listening → s.ads.announceCount = 0
  budget : s.lac.budget ≤ 1048560

/-! ### The view -/

/-- A node record within the ranges of R21; the mark is set on the own record alone. -/
abbrev NodeRecord.inRange (own : Nat) (r : NodeRecord) : Prop :=
  validNode r.id = true ∧ r.profile ≤ 15 ∧ r.age ≤ 9 ∧ r.missing ≤ 16 ∧ r.own = (r.id == own)

/-- A link record within the ranges of R22. -/
abbrev LinkRecord.inRange (l : LinkRecord) : Prop :=
  l.key.valid = true ∧ validNode l.toNode = true ∧ l.toPort ≤ 15 ∧ 1 ≤ l.cost ∧ l.cost ≤ 65535
    ∧ l.noise ≤ 65535 ∧ -32768 ≤ l.dispersion ∧ l.dispersion ≤ 32767

/-- The tables of the view keep their form (R21, R22): one record for a key, the sizes and the ranges of the fields,
the own record while the station is joined, and a node record for every link's from-node. -/
structure State.ViewForm (s : State) : Prop where
  nodesSorted : Table.Sorted NodeRecord.id s.tv.nodes
  linksSorted : Table.Sorted LinkRecord.code s.tv.links
  room : s.tv.nodes.length ≤ 64
  peerLinks : (dropLinks s.ownId s.tv.links).length ≤ 496
  nodes : ∀ r ∈ s.tv.nodes, r.inRange s.ownId
  links : ∀ l ∈ s.tv.links, l.inRange
  fromNode : ∀ l ∈ s.tv.links, (Table.lookup NodeRecord.id l.key.node s.tv.nodes).isSome = true
  own : s.sc.station.joined = true → s.ownRecord.isSome = true

/-- R33: each link record is VERIFIED exactly when the tables hold what the rule names. -/
abbrev State.Verified (s : State) : Prop :=
  ∀ l ∈ s.tv.links, l.verified = true ↔
    (l.toNode ≠ l.key.node ∧ (∃ r ∈ s.tv.nodes, r.id = l.toNode)
      ∧ ∃ m ∈ s.tv.links, m.key = ⟨l.toNode, l.toPort⟩ ∧ m.toNode = l.key.node ∧ m.toPort = l.key.port)

/-! ### Holds -/

/-- The slot is LIVE in COMMITTED. -/
def Slot.isCommitted : Slot → Bool
  | .live .committed _ _ => true
  | _ => false

/-- The hold table and the own hold slots (R88, R90, R104): one record for a key, no two records overlap, own records
are those of the LIVE slots and are committed in COMMITTED alone, numbers of slots differ, peers are at most 40 and
their origins are known. -/
structure State.HoldsOk (s : State) : Prop where
  sorted : Table.Sorted Hold.code s.hu.holds
  disjoint : s.hu.holds.Pairwise (fun a b => a.overlaps b = false)
  own : ∀ h ∈ s.hu.holds, h.own = (h.origin == s.ownId)
  slot : ∀ h ∈ s.hu.holds, h.own = true → ∃ i : Fin 8, (s.slot i).isLive = true ∧ (s.slot i).number = some h.number
  record : ∀ i : Fin 8, (s.slot i).isLive = true → ∃ h ∈ s.hu.holds, h.own = true ∧ (s.slot i).number = some h.number
  numbers : ∀ i j : Fin 8, (s.slot i).number ≠ none → (s.slot i).number = (s.slot j).number → i = j
  peers : s.peerHolds ≤ 40
  known : ∀ h ∈ s.hu.holds, h.own = false → s.knows h.origin = true
  committed : ∀ h ∈ s.hu.holds, h.own = true → ∀ i : Fin 8, (s.slot i).number = some h.number →
    h.committed = (s.slot i).isCommitted

/-- The block table (R86, R87): one entry for a key, keys within their limits, no empty mask, at most 32 entries. -/
structure State.BlocksOk (s : State) : Prop where
  sorted : Table.Sorted Block.code s.hu.blocks
  keys : ∀ b ∈ s.hu.blocks, b.key.valid = true
  marked : ∀ b ∈ s.hu.blocks, b.mask ≠ 0
  room : s.hu.blocks.length ≤ 32

/-! ### The due list -/

/-- The kinds a place carries (section 1.3). -/
def carries (p : Fin 10) (k : FrameKind) : Bool :=
  match k with
  | .announce => decide (p.val < 8)
  | .object => decide (p.val < 8)
  | .commit => decide (p.val < 8)
  | .release => decide (p.val < 8)
  | .advert => p == 8
  | .withdraw => p == 8
  | .solicit => p == 9

/-- The classes a kind may have (R3). -/
def classFits (k : FrameKind) (c : Fin 3) : Bool :=
  match k with
  | .object => c == 0
  | .withdraw => c == 0
  | .advert => true
  | _ => c == 1

/-- An entry that its place may hold (R3, R5, R6, R14). -/
abbrev Entry.fits (p : Fin 10) (e : Entry) : Prop :=
  carries p e.kind = true ∧ classFits e.kind e.cls = true ∧ e.attempts ≤ 7
    ∧ e.followOn.all (fun f => carries p f.1 && classFits f.1 f.2) = true
    ∧ (e.withdrawn = true → e.followOn = none)

/-- The due list keeps its form, and an attempt on the line is of the entry in its place. -/
structure State.DueOk (s : State) : Prop where
  entries : ∀ p : Fin 10, ∀ e, s.entry p = some e → e.fits p
  attempt : ∀ a, s.lac.attempt = some a → ∃ e, s.entry a.place = some e ∧ e.kind = a.kind

/-! ### The search context -/

/-- The sweep goes on to the next window in the order of the fit policy, or to the completion (R123, R124). -/
def Context.swept (c : Context) : Context :=
  if c.request.fit = .last ∧ c.request.lo < c.window then { c with window := c.window - 1, phase := .passStart }
  else if c.request.fit ≠ .last ∧ c.window + c.request.width ≤ c.request.hi then
    { c with window := c.window + 1, phase := .passStart }
  else { c with phase := .completing }

/-- The search is over (R138, R140): its request has left the queue, the context is gone, and `done` is posted. -/
def State.searchOver (done : List Completion) (s : State) : State :=
  { s with
    psu := ⟨s.psu.queue.tail, none⟩
    clp.completions := s.clp.completions ++ done
    clp.reservations := s.clp.reservations - done.length }

/-- A label within the request's limits (R125). -/
abbrev Label.within (q : PathRequest) (l : Label) : Prop := l.noise ≤ q.budget ∧ l.hops ≤ q.maxHops

/-- The search context keeps within its sizes and the request's limits (R117, R125). -/
structure Context.Ok (c : Context) : Prop where
  frontierSorted : Table.Sorted Label.node c.frontier
  frontierRoom : c.frontier.length ≤ 32
  treeRoom : c.tree.length ≤ 64
  frontier : ∀ l ∈ c.frontier, l.within c.request
  tree : ∀ l ∈ c.tree, l.within c.request
  best : ∀ l, c.bestArrival = some l →
    l.within c.request ∧ c.request.dmin ≤ l.dispersion ∧ l.dispersion ≤ c.request.dmax

/-- The search in flight, if any, keeps its form. -/
abbrev State.SearchOk (s : State) : Prop := ∀ c, s.psu.context = some c → c.Ok

end Sys2Proof.Machine
end

