-- ==== Sys2Proof/Certificates/Slice0/Obligations.lean ====
section
/-! DEFINITION. The statements for the provers. Each docstring names the rules of spec/ that the statement follows;
`takes`, `accepted`, `answered`, `replied`, `heard`, `Retired`, `advertMade`, `attemptOver`, `failsBy` and `succeedsBy` are
among the words of Sys2Proof/Safety.lean. -/

open Sys2Proof Sys2Proof.Machine

/-! ### The machine -/

/-- One step takes the command at the front of the queue and runs it with the queue's rest. -/
def Obligations.StepRunsFront : Prop :=
  ∀ (c : Instr) (rest : List Instr) (s : State),
    s.pending = c :: rest → step s = exec c { s with pending := rest }

/-- With no command waiting one bit time passes: the clock, the idle count of an idle line (R9), the watch (R18), the RI
timer (R173), the contest timers and every lifetime but that of a hold in COMMITTING (R90, R98) move on by one, and
exactly the part's own events that then fall are queued. While the reset line is held nothing passes. That time passes so
is the model's choice (log 1, log 2, log 3), and that the contest timer counts up (log 31). -/
def Obligations.EmptyQueuePassesABitTime : Prop :=
  ∀ s : State, s.pending = [] →
    (s.resetHeld = true → step s = .next s) ∧
    (s.resetHeld = false → ∃ t, step s = .next t ∧ { t with pending := [] } = s.elapse 1 ∧
      t.pending.Perm (s.elapse 1).ownEvents ∧
      t = { s with
        now := s.now + 1
        lac.idle := if s.lac.activity then s.lac.idle else s.lac.idle + 1
        lac.watch := match s.lac.watch with
          | .running e => .running (e + 1)
          | w => w
        sc.riTimer := s.sc.riTimer.map (fun e => e + 1)
        hu := { s.hu with holds := t.hu.holds, slots := t.hu.slots }
        pending := t.pending } ∧
      (∀ i : Fin 8, t.slot i = match s.slot i with
        | .live (.announced e commit) n tag => .live (.announced (e + 1) commit) n tag
        | x => x) ∧
      t.hu.holds.length = s.hu.holds.length ∧
      (∀ (k : Nat) (h : Hold), s.hu.holds[k]? = some h →
        ((h.own = true ∧ ∃ i commit tag, s.slot i = .live (.committing commit) h.number tag) →
          t.hu.holds[k]? = some h) ∧
        (¬(h.own = true ∧ ∃ i commit tag, s.slot i = .live (.committing commit) h.number tag) →
          t.hu.holds[k]? = some { h with lifetime := h.lifetime.map (fun l => l - 1) })) ∧
      (s.HoldsOk → ∀ c : Instr, c ∈ t.pending ↔
        (c = .riTick ∧ ∃ e, t.sc.riTimer = some e ∧ s.timing.ri * 1000000 ≤ e) ∨
        (c = .silenceWatchExpiry ∧ ∃ e, t.lac.watch = .running e ∧ s.timing.watch * 1000 ≤ e) ∨
        (∃ i e commit n tag, c = .contestExpiry i ∧ t.slot i = .live (.announced e commit) n tag ∧
          s.timing.contest * 1000 ≤ e) ∨
        (∃ i n tag, c = .holdLifetimeExpiry i ∧ (t.slot i = .live .held n tag ∨ t.slot i = .live .committed n tag) ∧
          ∃ h ∈ t.hu.holds, h.own = true ∧ h.number = n ∧ (h.lifetime = some 0 ∨ h.lifetime = none)) ∨
        (∃ h ∈ t.hu.holds, h.own = false ∧ h.lifetime = some 0 ∧
          c = .peerLifetimeExpiry (BitVec.ofNat 16 h.origin) h.number) ∨
        (c = .attemptStart 0 ∧ s.lac.attempt = none ∧ ∃ p, t.mayStart p = true) ∨
        (c = .echoLost ∧ ∃ a n, s.lac.attempt = some a ∧ a.startedAt + n + 8 ≤ t.now ∧
          (s.lac.sending.bind Transmission.cut = some n ∨
            (s.lac.sending.bind Transmission.cut = none ∧ s.lac.echo = false ∧ n = 12))) ∨
        (c = .searchStart ∧ s.psu.context = none ∧ s.psu.queue ≠ []) ∨
        (∃ x, s.psu.context = some x ∧ ((x.abortTag ≠ none ∧ c = .searchAbortEnd) ∨
          (x.abortTag = none ∧ ((x.phase = .passStart ∧ c = .passStart) ∨
            (x.phase = .selecting ∧ c = .selectionStep) ∨ (x.phase = .completing ∧ c = .searchCompletion)))))))

/-- What reset leaves (R20, R41, R42, R55, R73, R114, R117, R169, R170), and how the reset line gives it: it is asserted
in any state, and its release lets the part run. Transmit enable is low, and the send output gives filler while the line is
held and after it. The pins, the echo while its activity lasts (R11), and the queue of commands stand (log 7). -/
def Obligations.ResetLineClears : Prop :=
  (∀ s : State, ∃ t, exec .resetLineAssert s = .next t ∧ t.resetHeld = true ∧
    t.lac = { due := Vector.replicate 10 none, attempt := none, sending := none, budget := 0, idle := 0,
              activity := s.lac.activity, echo := s.lac.echo, lfsr := 0, watch := .off, isolated := false,
              assembler := ⟨none, []⟩ } ∧
    t.tv = { nodes := [], links := [], viewIncomplete := false, counter := 0 } ∧
    (∀ i : Fin 16, t.pt.ports[i] = ⟨false, 1, 0, 0, 0, .dark⟩) ∧
    t.ads = ⟨0, 0, 0, 0, false, .clear, false⟩ ∧
    (∀ i : Fin 16, t.pf.profiles[i] = ⟨256, 0, 0, 0, 0, 0⟩) ∧
    t.hu = { holds := [], slots := Vector.replicate 8 .free, lastNumber := 255, blocks := [], overflow := false } ∧
    t.psu = ⟨[], none⟩ ∧
    t.clp = { completions := [], reservations := 0, marks := ⟨false, false, false, false⟩, select := s.clp.select,
              port := .idle } ∧
    t.sc = ⟨.unconfigured, none, none, false, none, 0, none, none⟩ ∧ t.pending = s.pending ∧
    t.attention = false ∧ t.transmitEnable = false ∧ ∀ n : Int, t.sendOutput n = 0x00#8) ∧
  (∀ s : State, s.resetHeld = true →
    exec .resetLineRelease s =
      .next { s with resetHeld := false, clp.port := if s.clp.select then .waitRelease else .idle } ∧
    ∀ n : Int, State.sendOutput
      { s with resetHeld := false, clp.port := if s.clp.select then .waitRelease else .idle } n = 0x00#8) ∧
  exec .resetLineAssert State.reset = .next { State.reset with resetHeld := true }

/-- The state after reset meets every invariant that the steps keep. -/
def Obligations.ResetMeetsInvariants : Prop :=
  State.reset.Agree ∧ State.reset.Accounts ∧ State.reset.Ranges ∧ State.reset.ViewForm ∧ State.reset.Verified ∧
    State.reset.HoldsOk ∧ State.reset.BlocksOk ∧ State.reset.DueOk ∧ State.reset.SearchOk

/-- While the reset line is held, no command but those of the reset line itself changes anything but the two input pins,
the echo that ends with receive activity, and the transaction on the port (log 21). -/
def Obligations.HeldPartTakesNothing : Prop :=
  ∀ (c : Instr) (s : State), s.resetHeld = true → c ≠ .resetLineAssert → c ≠ .resetLineRelease →
    ∃ select port activity echo, exec c s =
      .next { s with clp.select := select, clp.port := port, lac.activity := activity, lac.echo := echo }

/-! ### The control link -/

/-- A request that finds no place is answered BUSY and leaves no trace (R160). -/
def Obligations.BusyLeavesNoTrace : Prop :=
  ∀ (c : Instr) (s : State), s.portOpen → requestOf c = true →
    (16 ≤ s.clp.completions.length + s.clp.reservations ∨
      ((∃ tag b, c = .path tag b) ∧ 4 ≤ s.psu.queue.length)) →
    exec c s = .next (s.replied [0x62#8])

/-- A header is malformed exactly where its kind is no request kind or its length is not one of section 11.4's table
(R159, R188), and a malformed request is answered so and leaves no trace (R160). -/
def Obligations.MalformedLeavesNoTrace : Prop :=
  (∀ (kind subject : Byte) (length : BitVec 16) (s : State), s.portOpen →
    headerMalformed kind subject length = true →
    exec (.malformed kind subject length) s = .next (s.replied [0x63#8])) ∧
  (∀ (kind subject : Byte) (length : BitVec 16), headerMalformed kind subject length = true ↔
    kind ≠ 0x01#8 ∧
      ¬((kind = 0x10#8 ∧ length = 5#16) ∨ (kind = 0x11#8 ∧ length = 16#16) ∨ (kind = 0x12#8 ∧ length = 10#16) ∨
        (kind = 0x13#8 ∧ length = 0#16) ∨ (kind = 0x14#8 ∧ length = 0#16) ∨ (kind = 0x20#8 ∧ length = 16#16) ∨
        (kind = 0x21#8 ∧ (length = 5#16 ∨ length = 1#16)) ∨ (kind = 0x30#8 ∧ length = 42#16) ∨
        (kind = 0x31#8 ∧ length = 2#16) ∨ (kind = 0x40#8 ∧ length = 1#16) ∨ (kind = 0x41#8 ∧ length = 1#16) ∨
        (kind = 0x42#8 ∧ length = 0#16) ∨ (kind = 0x43#8 ∧ length = 12#16) ∨ (kind = 0x50#8 ∧ length = 2#16) ∨
        (kind = 0x60#8 ∧ subject = 0#8 ∧ length = 3#16) ∨ (kind = 0x60#8 ∧ subject = 1#8 ∧ length = 4#16) ∨
        (kind = 0x60#8 ∧ subject = 2#8 ∧ length = 1#16) ∨
        (kind = 0x60#8 ∧ subject = 3#8 ∧ (length = 1#16 ∨ length = 3#16)) ∨ (kind = 0x70#8 ∧ length = 0#16)))

/-- FETCH sends the oldest completion and removes it with its last byte, or sends the empty marker, which removes nothing
(R161); SELECT_RELEASE ends the transaction and changes nothing else, and until it comes the part ignores what the host
sends (R158; log 8 says how a row that comes before it stands for such bytes). The send output gives the answer's bytes
from the decision on, and filler before them, after them and while nothing is answered (R158, R159). -/
def Obligations.FetchSendsTheOldest : Prop :=
  (∀ (c : Completion) (rest : List Completion) (n : Nat) (s : State), s.portOpen →
    s.clp.completions = c :: rest → c.bytes.length ≤ n →
    exec (.fetch n) s = .next ({ s with clp.completions := rest }.replied c.bytes)) ∧
  (∀ (c : Completion) (rest : List Completion) (n : Nat) (s : State), s.portOpen →
    s.clp.completions = c :: rest → n < c.bytes.length →
    exec (.fetch n) s = .next (s.replied (c.bytes.take n))) ∧
  (∀ (n : Nat) (s : State), s.portOpen → s.clp.completions = [] →
    exec (.fetch n) s = .next (s.replied ([0x7F#8].take n))) ∧
  (∀ s : State, s.resetHeld = false →
    exec .selectRelease s = .next { s with events := s.events + 1, clp.select := false, clp.port := .idle }) ∧
  (∀ (c : Instr) (s : State), s.resetHeld = false → s.clp.port ≠ .idle →
    requestOf c = true ∨ (∃ n, c = .fetch n) ∨ (∃ kind subject length, c = .malformed kind subject length) →
    exec c s = .next s) ∧
  (∀ (sent : List Byte) (s : State), s.clp.port = .answering sent →
    (∀ (k : Nat) (h : k < sent.length), s.sendOutput k = sent[k]) ∧
    (∀ n : Int, n < 0 ∨ (sent.length : Int) ≤ n → s.sendOutput n = 0x00#8)) ∧
  (∀ (n : Int) (s : State), s.clp.port = .idle ∨ s.clp.port = .waitRelease → s.sendOutput n = 0x00#8)

/-- A request in a state in which its owner does not take it completes at once with the status of section 9.3 and changes
nothing (R43, R74, R79, R87, R98, R118, R165, R170). -/
def Obligations.NotTakenCompletesAtOnce : Prop :=
  ∀ (c : Instr) (s : State) (kind : RequestKind) (tag : Tag) (status : Status), s.takes →
    ((∃ tag b, c = .path tag b) → s.psu.queue.length < 4) → notTaken s.sc.station c = some (kind, tag, status) →
    exec c s = .next (s.answered ⟨kind, tag, status, .none, false, .none⟩)

/-- Every step keeps the reservation count equal to the requests that wait, and entries and reservations within 16
(R162). -/
def Obligations.EveryStepKeepsAccounts : Prop :=
  ∀ s t : State, s.Agree → s.Accounts → step s = .next t → t.Accounts

/-- STATUS reports the state and clears the four marks (R167), in joined states and in the others. Attention is asserted
while the completion queue holds an entry, a slot is ENDED or a mark is set, and released when none holds (R168). -/
def Obligations.StatusReportsAndClearsMarks : Prop :=
  (∀ (tag : Tag) (s : State), s.takes → s.sc.station.joined = true →
    exec (.status tag) s = .next (State.answered
      ⟨.status, tag, .ok, .none, false, .status
        { station := s.sc.station
          conditions := ⟨s.lac.isolated, s.sc.muted, s.tv.viewIncomplete, s.hu.overflow⟩
          marks := s.clp.marks, debt := s.ads.debt, budget := s.lac.budget
          nodes := s.tv.nodes.length, links := s.tv.links.length
          live := s.hu.slots.toList.countP Slot.isLive, closing := s.hu.slots.toList.countP Slot.isClosing
          ended := s.hu.slots.toList.countP Slot.isEnded
          peerHolds := s.hu.holds.countP (fun h : Hold => !h.own), blocks := s.hu.blocks.length
          queue := s.psu.queue.length, completions := s.clp.completions.length
          reservations := s.clp.reservations + 1, counter := s.tv.counter }⟩
      { s with clp.marks := ⟨false, false, false, false⟩ })) ∧
  (∀ (tag : Tag) (s : State), s.takes → s.sc.station.joined = false →
    exec (.status tag) s = .next (State.answered
      ⟨.status, tag, .notJoined, .none, false,
        .stationOnly s.sc.station ⟨s.lac.isolated, s.sc.muted, s.tv.viewIncomplete, s.hu.overflow⟩ s.clp.marks⟩
      { s with clp.marks := ⟨false, false, false, false⟩ })) ∧
  (∀ s : State, s.attention = true ↔ s.clp.completions ≠ [] ∨ (∃ i n tag o, s.slot i = .ended n tag o) ∨
    s.clp.marks.isolated = true ∨ s.clp.marks.muted = true ∨ s.clp.marks.viewIncomplete = true ∨
    s.clp.marks.overflow = true)

/-! ### Configuration -/

/-- IDENTITY in UNCONFIGURED and TIMING in IDENTIFIED: the values stored, within their ranges, the state entered, and the
completion (R171, R172); node ids 0 and 65535 are refused. -/
def Obligations.ConfigurationIsStored : Prop :=
  (∀ (tag : Tag) (nodeId : BitVec 16) (profile transit ports : Byte) (s : State), s.takes →
    s.sc.station = .unconfigured → nodeId ≠ 0#16 → nodeId ≠ 0xFFFF#16 →
    exec (.identity tag nodeId profile transit ports) s =
      .next (State.answered
        ⟨.identity, tag, if 15 < profile.toNat ∨ ports = 0#8 ∨ 16 < ports.toNat then .clamped else .ok, .none, false,
          .identity ⟨nodeId.toNat, min 15 profile.toNat, transit.getLsbD 0, max 1 (min 16 ports.toNat)⟩⟩
        { s with
          sc.identity := some ⟨nodeId.toNat, min 15 profile.toNat, transit.getLsbD 0, max 1 (min 16 ports.toNat)⟩
          sc.station := .identified
          lac.lfsr := nodeId })) ∧
  (∀ (tag : Tag) (nodeId : BitVec 16) (profile transit ports : Byte) (s : State), s.takes →
    s.sc.station = .unconfigured → nodeId = 0#16 ∨ nodeId = 0xFFFF#16 →
    exec (.identity tag nodeId profile transit ports) s =
      .next (s.answered ⟨.identity, tag, .refused, .range, false, .none⟩)) ∧
  (∀ (tag : Tag) (ri listen watch contest hold commit budget ifg : BitVec 16) (v : Timing) (s : State), s.takes →
    s.sc.station = .identified →
    v = ⟨max 1 (min 255 ri.toNat), max 1 (min 16 listen.toNat), max 10 (min 65535 watch.toNat),
         max 1 (min 255 contest.toNat), max 1 (min 255 hold.toNat), max 1 (min 65535 commit.toNat),
         max 1 (min 65535 budget.toNat), max 16 (min 255 ifg.toNat)⟩ →
    exec (.timing tag ri listen watch contest hold commit budget ifg) s =
      .next (State.answered
        ⟨.timing, tag,
          if v = ⟨ri.toNat, listen.toNat, watch.toNat, contest.toNat, hold.toNat, commit.toNat, budget.toNat, ifg.toNat⟩
            then .ok else .clamped, .none, false, .timing v⟩
        { s with sc.timing := some v, sc.station := .configured }))

/-- PROFILE in CONFIGURED writes one profile and sets its trims to 0 (R74); TRIM steps the two trims by one, holds them
at their limits, and reports the effective values (R79, R80). Elsewhere both complete SEQUENCE. -/
def Obligations.ProfilesAreWrittenAndTrimmed : Prop :=
  (∀ (tag : Tag) (index scale pass add drop : BitVec 16) (s : State), s.takes → s.sc.station ≠ .configured →
    exec (.profile tag index scale pass add drop) s =
      .next (s.answered ⟨.profile, tag, .sequence, .none, false, .none⟩)) ∧
  (∀ (tag : Tag) (index fields : Byte) (s : State), s.takes →
    s.sc.station = .unconfigured ∨ s.sc.station = .identified →
    exec (.trim tag index fields) s = .next (s.answered ⟨.trim, tag, .sequence, .none, false, .none⟩)) ∧
  (∀ (tag : Tag) (index scale pass add drop : BitVec 16) (s : State), s.takes → s.sc.station = .configured →
    15 < index.toNat →
    exec (.profile tag index scale pass add drop) s =
      .next (s.answered ⟨.profile, tag, .refused, .range, false, .none⟩)) ∧
  (∀ (tag : Tag) (index scale pass add drop : BitVec 16) (s : State), s.takes → s.sc.station = .configured →
    (h : index.toNat < 16) →
    exec (.profile tag index scale pass add drop) s =
      .next (State.answered
        ⟨.profile, tag, if scale = 0#16 ∨ 1023 < scale.toNat then .clamped else .ok, .none, false,
          .profile index.toNat ⟨max 1 (min 1023 scale.toNat), pass.toNat, add.toNat, drop.toNat, 0, 0⟩⟩
        { s with pf.profiles :=
            (s.pf.profiles.set index.toNat ⟨max 1 (min 1023 scale.toNat), pass.toNat, add.toNat, drop.toNat, 0, 0⟩) })) ∧
  (∀ (tag : Tag) (index fields : Byte) (s : State), s.takes → s.sc.station ≠ .unconfigured →
    s.sc.station ≠ .identified →
    (15 < index.toNat ∨ fields.toNat % 4 = 3 ∨ fields.toNat / 4 % 4 = 3) →
    exec (.trim tag index fields) s = .next (s.answered ⟨.trim, tag, .refused, .range, false, .none⟩)) ∧
  (∀ (tag : Tag) (index fields : Byte) (p q : Profile) (s : State), s.takes → s.sc.station ≠ .unconfigured →
    s.sc.station ≠ .identified → (h : index.toNat < 16) → fields.toNat % 4 ≠ 3 → fields.toNat / 4 % 4 ≠ 3 →
    p = s.pf.profiles[index.toNat] → p.inRange →
    q = { p with
      noiseTrim := if fields.toNat % 4 = 1 then min 7 (p.noiseTrim + 1)
        else if fields.toNat % 4 = 2 then max (-8) (p.noiseTrim - 1) else p.noiseTrim
      penaltyTrim := if fields.toNat / 4 % 4 = 1 then min 7 (p.penaltyTrim + 1)
        else if fields.toNat / 4 % 4 = 2 then max (-8) (p.penaltyTrim - 1) else p.penaltyTrim } →
    exec (.trim tag index fields) s =
      .next (State.answered
        ⟨.trim, tag,
          if (fields.toNat % 4 = 1 ∧ p.noiseTrim = 7) ∨ (fields.toNat % 4 = 2 ∧ p.noiseTrim = -8)
            ∨ (fields.toNat / 4 % 4 = 1 ∧ p.penaltyTrim = 7) ∨ (fields.toNat / 4 % 4 = 2 ∧ p.penaltyTrim = -8)
            then .clamped else .ok, .none, false,
          .trim index.toNat q.noiseTrim q.penaltyTrim q.factor q.effPass q.effAdd q.effDrop⟩
        { s with pf.profiles := s.pf.profiles.set index.toNat q }))

/-- The figures the spec derives by exact arithmetic: effective penalties (R75), the noise factor (R76), link noise
(R147), the margin (R155) and the headroom (R156). -/
def Obligations.FiguresAreExact : Prop :=
  (∀ (penalty : Nat) (trim : Int), penalty ≤ 65535 → -8 ≤ trim → trim ≤ 7 →
    effectivePenalty penalty trim = min 65535 ((penalty * (32 + trim).toNat + 31) / 32) ∧
    penalty * (32 + trim).toNat ≤ 2555865 ∧
    effectivePenalty penalty 0 = penalty ∧ effectivePenalty 0 trim = 0 ∧
    (trim < 0 → effectivePenalty penalty trim ≤ penalty) ∧ (penalty ≠ 0 → effectivePenalty penalty trim ≠ 0)) ∧
  (∀ p : Profile, p.inRange → p.factor = p.scale * (32 + p.noiseTrim).toNat ∧ 24 ≤ p.factor ∧ p.factor ≤ 39897) ∧
  (∀ (load : Nat) (p : Profile), load ≤ 65535 → p.inRange →
    linkNoise load p = min 65535 ((load * p.factor + 8191) / 8192) ∧
    (p.factor = 8192 → linkNoise load p = load) ∧ (load = 0 → linkNoise load p = 0) ∧
    (load ≠ 0 → 1 ≤ linkNoise load p)) ∧
  (∀ budget noise : Nat, budget ≤ 1048575 →
    (budget = 1048575 ∨ noise = 0 → margin budget noise = 65535) ∧
    (budget ≠ 1048575 → noise ≠ 0 → margin budget noise ≤ 65535 ∧ margin budget noise * noise ≤ budget * 256 ∧
      (margin budget noise ≠ 65535 → budget * 256 < (margin budget noise + 1) * noise)) ∧
    (noise ≠ 0 → noise ≤ budget → 256 ≤ margin budget noise)) ∧
  (∀ dmin dmax d : Int, headroom dmin dmax d = min (d - dmin) (dmax - d) ∧
    (dmin ≤ d → d ≤ dmax → 0 ≤ headroom dmin dmax d) ∧
    (dmax - dmin ≤ 16777214 → headroom dmin dmax d ≤ 8388607))

/-! ### Membership -/

/-- JOIN in CONFIGURED, with its view and place 9 empty, begins the membership: the next state in full (R23, R56, R174).
Its completion comes later, so its reservation stands. -/
def Obligations.JoinBeginsMembership : Prop :=
  ∀ (tag : Tag) (v : Identity) (tm : Timing) (s : State), s.takes → s.sc.station = .configured →
    s.sc.identity = some v → s.sc.timing = some tm → s.tv.nodes = [] → s.tv.links = [] → s.entry 9 = none →
    exec (.join tag) s = .next (State.accepted { s with
      tv.nodes := [⟨v.nodeId, v.profile, v.transit, s.tv.counter.setWidth 16, 0, true, 0⟩]
      tv.links := s.ownLinkSet.map (fun e =>
        ⟨⟨v.nodeId, e.fromPort⟩, e.toNode, e.toPort, e.cost, e.noise, e.dispersion, e.used, false⟩)
      tv.counter := s.tv.counter + 2#32
      ads := ⟨0, s.tv.counter.setWidth 16, 2, 0, false, .clear, false⟩
      lac.budget := tm.budget * 16
      lac.watch := .running 0
      lac.due := s.lac.due.set 9 (some ⟨.solicit, 1, s.events + 1, 0, none, none, false⟩)
      sc.riTimer := some 0
      sc.listen := 0
      sc.joinWaiting := some tag
      sc.station := .listening })

/-- LEAVE in LISTENING, ANNOUNCING or OPERATING: what waits completes in its order, the slots close, the SOLICIT is
withdrawn, the withdraw ADVERT is due, and the LEAVE waits (R112, R136, R180). Each record removed counts 1 (R37). The
ADS's flags stand as they were, entry present too (log 34). -/
def Obligations.LeaveBegins : Prop :=
  ∀ (tag : Tag) (s : State), s.takes → s.HoldsOk →
    s.sc.station = .listening ∨ s.sc.station = .announcing ∨ s.sc.station = .operating →
    ∃ t, exec (.leave tag) s = .next t ∧
      t.sc = { s.sc with station := .leaving, joinWaiting := none, leaveWaiting := some tag } ∧
      t.psu = ⟨[], none⟩ ∧
      t.clp.completions = s.clp.completions
        ++ (s.sc.joinWaiting.map (fun j => Completion.plain .join j .aborted)).toList
        ++ s.pathsFlushed ++ s.commitsEnded .released ∧
      (∀ i : Fin 8, t.slot i = s.slotLeft i) ∧ t.hu.holds = s.holdsLeft ∧
      t.hu.blocks = s.hu.blocks ∧ t.hu.lastNumber = s.hu.lastNumber ∧ t.hu.overflow = s.hu.overflow ∧
      t.tv = { s.tv with counter := s.tv.counter + BitVec.ofNat 32 (s.hu.slots.toList.countP Slot.isLive) } ∧
      t.pt = s.pt ∧ t.pf = s.pf ∧ t.ads = s.ads ∧ t.lac = { s.lac with due := t.lac.due } ∧
      t = { s with events := s.events + 1, lac := t.lac, tv := t.tv, hu := t.hu, psu := t.psu, sc := t.sc, clp := t.clp } ∧
      t.clp = { s.clp with select := true, port := .answering [0x61#8], completions := t.clp.completions,
                           reservations := t.clp.reservations } ∧
      (∀ (i : Fin 8) (u : State), u = { s with events := s.events + 1 } →
        t.entry (holdPlace i) = if (s.slot i).isLive = false then s.entry (holdPlace i)
          else if s.slotLeft i = .free then (u.withdrawEntry (holdPlace i)).entry (holdPlace i)
          else (u.makeDue (holdPlace i) .release 1).entry (holdPlace i)) ∧
      (s.onLine 9 = false → t.entry 9 = none) ∧
      (s.onLine 9 = true → t.entry 9 = (s.entry 9).map (fun e => { e with withdrawn := true, followOn := none })) ∧
      (s.entry 8 = none → t.entry 8 = some ⟨.withdraw, 0, s.events + 1, 0, none, none, false⟩) ∧
      (∀ e, s.entry 8 = some e → e.kind = .advert → s.onLine 8 = false →
        t.entry 8 = some { e with kind := .withdraw, cls := 0, attempts := 0, backoffEnd := none }) ∧
      (∀ e, s.entry 8 = some e → e.kind = .advert → s.onLine 8 = true →
        t.entry 8 = some { e with followOn := some (.withdraw, 0), withdrawn := false })

/-- LEAVE in MUTED completes at once, without a frame, after the flush of the path queue (R40, R71, R113, R181, R182). -/
def Obligations.LeaveFromMutedCompletes : Prop :=
  ∀ (tag : Tag) (s : State), s.takes → s.Agree → s.sc.station = .muted →
    ∃ t, exec (.leave tag) s = .next t ∧
      t.sc = { s.sc with station := .configured, muted := false, riTimer := none, listen := 0 } ∧
      t.tv = { nodes := [], links := [], viewIncomplete := false, counter := s.tv.counter + 1#32 } ∧
      t.hu = { s.hu with holds := [], slots := Vector.replicate 8 .free, overflow := false } ∧
      t.psu = ⟨[], none⟩ ∧ t.ads = ⟨0, 0, 0, 0, false, .clear, false⟩ ∧ t.pt = s.pt ∧ t.pf = s.pf ∧
      t.lac = { s.lac with due := Vector.replicate 10 none, budget := 0, watch := .off, isolated := false } ∧
      t.clp.completions = s.clp.completions ++ s.pathsFlushed ++ [⟨.leave, tag, .ok, .none, false, .none⟩] ∧
      t.clp = { s.clp with select := true, port := .answering [0x61#8], completions := t.clp.completions,
                           reservations := t.clp.reservations, marks := s.marksLeft true } ∧
      t = { s with events := s.events + 1, lac := t.lac, tv := t.tv, ads := t.ads, hu := t.hu, psu := t.psu,
                   sc := t.sc, clp := t.clp }

/-- The withdraw ADVERT ends LEAVE (R69, R181): OK when it was sent, MEDIUM_FAILED at its eighth failure, however the
attempt fails (R11, R12; that ECHO_LOST ends the attempt whose echo fell, and its charge, are log 20's). -/
def Obligations.WithdrawEndsLeave : Prop :=
  ∀ (c : Instr) (a : Attempt) (e : Entry) (tag : Tag) (status : Status) (u s : State), s.resetHeld = false →
    s.sc.station = .leaving → s.sc.muted = false → s.sc.leaveWaiting = some tag →
    s.lac.attempt = some a → a.place = 8 → a.kind = .withdraw → s.entry 8 = some e → e.followOn = none →
    ((succeedsBy a c ∧ status = .ok ∧ u = s.attemptOver a (8 * (a.frame.length + 4))) ∨
      (s.failsBy a c u ∧ e.withdrawn = false ∧ e.attempts = 7 ∧ status = .mediumFailed)) →
    ∃ t, exec c s = .next t ∧
      t.sc = { s.sc with station := .configured, riTimer := none, listen := 0, leaveWaiting := none } ∧
      t.tv = { nodes := [], links := [], viewIncomplete := false, counter := s.tv.counter + 1#32 } ∧
      t.hu = { s.hu with holds := [], slots := Vector.replicate 8 .free, overflow := false } ∧
      t.ads = ⟨0, 0, 0, 0, false, .clear, false⟩ ∧ t.psu = s.psu ∧ t.pt = s.pt ∧ t.pf = s.pf ∧
      t.lac = { u.lac with due := Vector.replicate 10 none, attempt := none, budget := 0, watch := .off
                           isolated := false } ∧
      t.lac.lfsr = s.lac.lfsr ∧ t.now = u.now ∧
      t.clp = { s.clp with completions := s.clp.completions ++ [⟨.leave, tag, status, .none, false, .none⟩],
                           reservations := s.clp.reservations - 1, marks := s.marksLeft s.clp.marks.muted } ∧
      t = { s with now := t.now, events := s.events + 1, lac := t.lac, tv := t.tv, ads := t.ads, hu := t.hu,
                   sc := t.sc, clp := t.clp }

/-- A duplicate identity mutes the station (R111, R178, R179): the attempt is cut and its abort delimiter goes out (R15),
the due list is emptied, the own holds end FAILED, each counting 1 (R37), a waiting JOIN completes DUPLICATE_ID; in
LEAVING it ends the LEAVE; otherwise it changes nothing. Taken together with SENT for the second ADVERT of ANNOUNCING, in
either order the station ends MUTED. That the row is the report as the SC takes it, whatever receive activity is by then, is
log 10's choice. What is charged for the cut attempt is log 20's reading, and the order of several FAILED completions is the
model's choice (log 32). -/
def Obligations.DuplicateIdentityMutes : Prop :=
  (∀ s : State, s.resetHeld = false → s.HoldsOk → s.sc.muted = false →
    s.sc.station = .listening ∨ s.sc.station = .announcing ∨ s.sc.station = .operating →
    ∃ t, exec .duplicateIdentity s = .next t ∧
      t.sc = { s.sc with station := .muted, muted := true,
                         joinWaiting := if s.sc.station = .operating then s.sc.joinWaiting else none } ∧
      t.lac = { s.lac with
        due := Vector.replicate 10 none, attempt := none, assembler := .waiting
        sending := match s.lac.attempt with
          | none => s.lac.sending
          | some a => some ⟨a.startedAt, a.frame, some (s.sentBefore a)⟩
        budget := match s.lac.attempt with
          | none => s.lac.budget
          | some a => s.lac.budget - (s.sentBefore a + 8 + 7) / 8 } ∧
      (∀ i : Fin 8, t.slot i = (s.slot i).muted) ∧ t.hu.holds = s.holdsLeft ∧ t.hu.blocks = s.hu.blocks ∧
      t.ads = { s.ads with entryPresent := false, mark := s.ads.mark.returned } ∧ t.psu = s.psu ∧ t.pt = s.pt ∧
      t.pf = s.pf ∧
      t.tv = { s.tv with counter := s.tv.counter + BitVec.ofNat 32 (s.hu.slots.toList.countP Slot.isLive) } ∧
      t.clp.marks = { s.clp.marks with muted := true } ∧
      t.clp.completions = s.clp.completions ++ s.commitsEnded .failed
        ++ (if s.sc.station = .operating then []
            else (s.sc.joinWaiting.map (fun j => Completion.plain .join j .duplicateId)).toList) ∧
      t = { s with events := s.events + 1, lac := t.lac, tv := t.tv, ads := t.ads, sc := t.sc,
                   hu := { s.hu with holds := t.hu.holds, slots := t.hu.slots }
                   clp := { s.clp with completions := t.clp.completions, reservations := t.clp.reservations,
                                       marks := t.clp.marks } }) ∧
  (∀ (tag : Tag) (s : State), s.resetHeld = false → s.Agree →
    s.sc.station = .leaving → s.sc.leaveWaiting = some tag →
    ∃ t, exec .duplicateIdentity s = .next t ∧
      t.sc = { s.sc with station := .configured, riTimer := none, listen := 0, leaveWaiting := none } ∧
      t.tv = { nodes := [], links := [], viewIncomplete := false, counter := s.tv.counter + 1#32 } ∧
      t.hu = { s.hu with holds := [], slots := Vector.replicate 8 .free, overflow := false } ∧
      t.ads = ⟨0, 0, 0, 0, false, .clear, false⟩ ∧
      t.lac = { s.lac with due := Vector.replicate 10 none, attempt := none, budget := 0, watch := .off,
                           isolated := false, assembler := .waiting
                           sending := match s.lac.attempt with
                             | none => s.lac.sending
                             | some a => some ⟨a.startedAt, a.frame, some (s.sentBefore a)⟩ } ∧
      t.clp = { s.clp with completions := s.clp.completions ++ [⟨.leave, tag, .duplicateId, .none, false, .none⟩],
                           reservations := s.clp.reservations - 1, marks := s.marksLeft true } ∧
      t = { s with events := s.events + 1, lac := t.lac, tv := t.tv, ads := t.ads, hu := t.hu, sc := t.sc,
                   clp := t.clp }) ∧
  (∀ s : State, s.resetHeld = false →
    s.sc.station = .unconfigured ∨ s.sc.station = .identified ∨ s.sc.station = .configured ∨ s.sc.station = .muted →
    exec .duplicateIdentity s = .next { s with events := s.events + 1, lac.assembler := .waiting }) ∧
  (∀ (c : Instr) (a : Attempt) (e : Entry) (s : State), s.resetHeld = false →
    s.sc.station = .announcing → s.ads.announceCount = 1 → s.lac.attempt = some a → a.place = 8 → a.kind = .advert →
    s.entry 8 = some e → succeedsBy a c →
    (∃ t, exec .duplicateIdentity s = .next t ∧ t.sc.station = .muted ∧ t.sc.joinWaiting = none ∧
      exec c t = .next { t with events := t.events + 1 }) ∧
    (∃ t u, exec c s = .next t ∧ t.sc.station = .operating ∧ t.sc.joinWaiting = none ∧
      exec .duplicateIdentity t = .next u ∧ u.sc.station = .muted))

/-- Every step keeps the blocks in agreement with the station state. -/
def Obligations.EveryStepKeepsAgreement : Prop :=
  ∀ s t : State, s.Agree → step s = .next t → t.Agree

/-- Every step keeps the registers within the ranges the spec gives them. -/
def Obligations.EveryStepKeepsRanges : Prop :=
  ∀ s t : State, s.Agree → s.Ranges → step s = .next t → t.Ranges

/-- The RI tick at its blocks (R7, R34, R57, R65, R173, R175), the due check at its end among them (R59, R66): an ADVERT
is made due, or raised to class 0 at a debt of 8, or nothing. Each peer record that reaches age 10 is purged with its links
and its peer holds: it clears VIEW_INCOMPLETE, its holds clear HOLDS_OVERFLOW, links to it are UNVERIFIED, and it and each
hold count 1 (R35, R36, R37, R107). The tick is the moment its timer reaches the RI, so the clock
runs on by what the timer has left (log 4), and where no timer runs the row changes nothing (log 5). -/
def Obligations.RiTickReachesEveryBlock : Prop :=
  (∀ s : State, s.resetHeld = false → s.sc.riTimer = none →
    exec .riTick s = .next { s with events := s.events + 1 }) ∧
  ∀ (e : Nat) (st : Station) (debt : Int) (wait : Bool) (u s : State), s.resetHeld = false → s.sc.riTimer = some e →
    st = (if s.sc.station = .listening ∧ s.sc.listen + 1 = s.timing.joinListen then .announcing else s.sc.station) →
    debt = (if s.sc.station = .listening ∨ s.sc.station = .announcing ∨ s.sc.station = .operating
      then min 8 (s.ads.debt + 1) else s.ads.debt) →
    wait = (if s.sc.station = .announcing ∨ s.sc.station = .operating then false else s.ads.postDropWait) →
    u = { s with events := s.events + 1 }.elapse (s.timing.ri * 1000000 - e) →
    ∃ t, exec .riTick s = .next t ∧
      t.lac = { u.lac with due := t.lac.due, budget := s.timing.budget * 16 } ∧
      t.sc = { s.sc with
        riTimer := some 0, station := st
        listen := if s.sc.station = .listening then s.sc.listen + 1 else s.sc.listen } ∧
      t.now = s.now + (s.timing.ri * 1000000 - e) ∧
      t.ads = { s.ads with debt := debt, postDropWait := wait, entryPresent := t.ads.entryPresent } ∧
      (∀ p : Fin 10, p ≠ 8 → t.entry p = s.entry p) ∧
      ((st ≠ .announcing ∧ st ≠ .operating) ∨ wait = true →
        t.entry 8 = s.entry 8 ∧ t.ads.entryPresent = s.ads.entryPresent) ∧
      (st = .announcing ∨ st = .operating → wait = false → s.ads.entryPresent = true →
        t.ads.entryPresent = true ∧
        t.entry 8 = if debt = 8 then (s.entry 8).map (fun x =>
            { x with cls := 0, followOn := x.followOn.map (fun f => (f.1, 0)) }) else s.entry 8) ∧
      (st = .announcing ∨ st = .operating → wait = false → s.ads.entryPresent = false → ∀ owed : Option (Fin 3),
        owed = owedClass st s.ads.announceCount s.ads.mark debt →
        t.ads.entryPresent = owed.isSome ∧ (owed = none → t.entry 8 = s.entry 8) ∧
        (∀ c, owed = some c → s.advertsOnly → t.entry 8 = u.advertMade c)) ∧
      (s.lac.isolated = true → t.tv = s.tv ∧ t.hu = u.hu ∧ t.clp = s.clp) ∧
      (s.lac.isolated = false → s.ViewForm → s.HoldsOk → ∀ (purged : Nat → Bool) (goes : Hold → Bool),
        purged = (fun n => s.tv.nodes.any (fun r => r.id == n && !r.own && decide (9 ≤ r.age))) →
        goes = (fun h => !h.own && purged h.origin) →
        t.tv = {
          nodes := (s.tv.nodes.filter (fun r => !purged r.id)).map (fun r =>
            if r.own then r else { r with age := r.age + 1 })
          links := (s.tv.links.filter (fun l => !purged l.key.node)).map (fun l =>
            if purged l.toNode then { l with verified := false } else l)
          viewIncomplete := s.tv.viewIncomplete && !s.tv.nodes.any (fun r => purged r.id)
          counter := s.tv.counter +
            BitVec.ofNat 32 (s.tv.nodes.countP (fun r => purged r.id) + s.hu.holds.countP goes) } ∧
        t.hu.holds = u.hu.holds.filter (fun h => !goes h) ∧
        t.hu.overflow = (s.hu.overflow && !s.hu.holds.any goes) ∧
        t.clp.marks.viewIncomplete = (s.clp.marks.viewIncomplete ||
          (s.tv.viewIncomplete && s.tv.nodes.any (fun r => purged r.id))) ∧
        t.clp.marks.overflow = (s.clp.marks.overflow || (s.hu.overflow && s.hu.holds.any goes))) ∧
      t.hu = { u.hu with holds := t.hu.holds, overflow := t.hu.overflow } ∧
      t.clp = { s.clp with marks := { s.clp.marks with viewIncomplete := t.clp.marks.viewIncomplete
                                                       overflow := t.clp.marks.overflow } } ∧
      t = { s with now := t.now, events := s.events + 1, lac := t.lac, tv := t.tv, ads := t.ads, hu := t.hu,
                   sc := t.sc, clp := t.clp }

/-! ### Own ports -/

/-- Port requests in IDENTIFIED and CONFIGURED (R43 to R48): a port that is not fitted is refused, a value or a trace is
held in its record, an invalid word changes nothing, and nothing else happens. -/
def Obligations.PortRequestsAreHeld : Prop :=
  (∀ (c : Instr) (kind : RequestKind) (tag : Tag) (port : Byte) (s : State), s.takes →
    s.sc.station ≠ .unconfigured → 15 < port.toNat ∨ s.portCount ≤ port.toNat →
    ((kind = .portSet ∧ ∃ enabled cost noise dispersion used,
        c = .portSet tag port enabled cost noise dispersion used) ∨
      (kind = .portTrace ∧ ((∃ word, c = .portTrace tag port word) ∨ c = .portTraceLoss tag port))) →
    exec c s = .next (s.answered ⟨kind, tag, .refused, .range, false, .none⟩)) ∧
  (∀ (tag : Tag) (port enabled : Byte) (cost noise dispersion : BitVec 16) (used : SlotMap) (s : State), s.takes →
    s.sc.station = .identified ∨ s.sc.station = .configured → (h : port.toNat < 16) → port.toNat < s.portCount →
    exec (.portSet tag port enabled cost noise dispersion used) s = .next (State.answered
      ⟨.portSet, tag, if cost = 0#16 then .clamped else .ok, .none, false, .port port.toNat
        ⟨enabled.getLsbD 0, max 1 cost.toNat, noise.toNat, dispersion.toInt, used, s.pt.ports[port.toNat].trace⟩⟩
      { s with pt.ports := (s.pt.ports.set port.toNat
        ⟨enabled.getLsbD 0, max 1 cost.toNat, noise.toNat, dispersion.toInt, used, s.pt.ports[port.toNat].trace⟩) })) ∧
  (∀ (tag : Tag) (port : Byte) (word : BitVec 32) (node far : Nat) (trace : Trace) (s : State), s.takes →
    s.sc.station = .identified ∨ s.sc.station = .configured → (h : port.toNat < 16) → port.toNat < s.portCount →
    readTraceWord word = some (node, far) → trace = (if node = s.ownId then .looped else .heard node far) →
    exec (.portTrace tag port word) s = .next (State.answered
      ⟨.portTrace, tag, .ok, .none, false, .trace port.toNat trace⟩
      { s with pt.ports := s.pt.ports.set port.toNat { s.pt.ports[port.toNat] with trace := trace } })) ∧
  (∀ (tag : Tag) (port : Byte) (word : BitVec 32) (s : State), s.takes → s.sc.station ≠ .unconfigured →
    (h : port.toNat < 16) → port.toNat < s.portCount → readTraceWord word = none →
    exec (.portTrace tag port word) s = .next (s.answered
      ⟨.portTrace, tag, .traceInvalid, .none, false, .trace port.toNat s.pt.ports[port.toNat].trace⟩)) ∧
  (∀ (tag : Tag) (port : Byte) (s : State), s.takes →
    s.sc.station = .identified ∨ s.sc.station = .configured → (h : port.toNat < 16) → port.toNat < s.portCount →
    exec (.portTraceLoss tag port) s = .next (State.answered
      ⟨.portTrace, tag, .ok, .none, false, .trace port.toNat .dark⟩
      { s with pt.ports := s.pt.ports.set port.toNat { s.pt.ports[port.toNat] with trace := .dark } }))

/-- A port request from LISTENING on (R24, R44, R46 to R50): a record that stays as it is makes no rebuild; a port change
replaces the own link set by one entry for each fitted port that is enabled and HEARD, leaves the links of other nodes
but for their verification, retires the committed holds on an own link that are lit on every link (R103, R107), and marks
the content, with an ADVERT of class 1 in place 8 (R58, R61). Each record that goes counts 1 beside the rebuild (R37). That
the content mark stays as it is in MUTED is log 12's reading of R60 and R61 against R70. -/
def Obligations.PortChangeRebuildsOwnLinks : Prop :=
  ∀ (c : Instr) (tag : Tag) (port : Byte) (r : PortRecord) (answer : Completion) (s : State), s.takes → s.ViewForm →
    s.Ranges → s.HoldsOk → s.sc.station.joined = true → (h : port.toNat < 16) → port.toNat < s.portCount →
    ((∃ enabled cost noise dispersion used, c = .portSet tag port enabled cost noise dispersion used ∧
        r = ⟨enabled.getLsbD 0, max 1 cost.toNat, noise.toNat, dispersion.toInt, used, s.pt.ports[port.toNat].trace⟩ ∧
        answer = ⟨.portSet, tag, if cost = 0#16 then .clamped else .ok, .none, false, .port port.toNat r⟩) ∨
      (∃ word node far, c = .portTrace tag port word ∧ readTraceWord word = some (node, far) ∧
        r = { s.pt.ports[port.toNat] with trace := if node = s.ownId then .looped else .heard node far } ∧
        answer = ⟨.portTrace, tag, .ok, .none, false, .trace port.toNat r.trace⟩) ∨
      (c = .portTraceLoss tag port ∧ r = { s.pt.ports[port.toNat] with trace := .dark } ∧
        answer = ⟨.portTrace, tag, .ok, .none, false, .trace port.toNat .dark⟩)) →
    (r = s.pt.ports[port.toNat] → exec c s = .next (s.answered answer)) ∧
    (r ≠ s.pt.ports[port.toNat] → ∃ t, exec c s = .next t ∧
      t.pt.ports = s.pt.ports.set port.toNat r ∧
      (∀ q : Fin 16, (Table.lookup LinkRecord.code (LinkKey.code ⟨s.ownId, q.val⟩) t.tv.links).map LinkRecord.entry =
        (if q.val < s.portCount ∧ t.pt.ports[q].enabled = true then
          match t.pt.ports[q].trace with
          | .heard node far => some ⟨q.val, node, far, t.pt.ports[q].cost, t.pt.ports[q].noise,
              t.pt.ports[q].dispersion, t.pt.ports[q].used⟩
          | _ => none
        else none)) ∧
      (dropLinks s.ownId t.tv.links).map (fun l => { l with verified := false }) =
        (dropLinks s.ownId s.tv.links).map (fun l => { l with verified := false }) ∧
      t.tv.nodes = s.tv.nodes ∧ t.tv.viewIncomplete = s.tv.viewIncomplete ∧
      t.tv.counter = s.tv.counter + BitVec.ofNat 32 (1 + s.hu.holds.countP (t.retires s.ownId)) ∧
      s.Retired t (t.retires s.ownId) ∧
      t.clp = { (s.answered answer).clp with marks := { s.clp.marks with overflow := t.clp.marks.overflow } } ∧
      (s.sc.station = .muted → t.ads = s.ads) ∧
      (s.sc.station ≠ .muted → t.ads = { s.ads with mark := .waiting, entryPresent := s.ads.entryPresent ||
        ((s.sc.station == .announcing || s.sc.station == .operating) && !s.ads.postDropWait) }) ∧
      ((s.sc.station = .announcing ∨ s.sc.station = .operating) → s.ads.postDropWait = false → s.advertsOnly →
        t.entry 8 = { s with events := s.events + 1 }.advertMade 1) ∧
      ((s.sc.station ≠ .announcing ∧ s.sc.station ≠ .operating) ∨ s.ads.postDropWait = true →
        t.entry 8 = s.entry 8) ∧
      t.entry 9 = s.entry 9 ∧ t.lac = { s.lac with due := t.lac.due } ∧
      t = { s with events := s.events + 1, pt := t.pt, tv := t.tv, ads := t.ads, hu := t.hu, lac := t.lac,
                   clp := t.clp })

/-- A trace word is valid exactly under the tests of R45, with the fields of section 11.3, and it names its far node and
far port. -/
def Obligations.TraceWordsAreChecked : Prop :=
  ∀ (word : BitVec 32) (node far : Nat), readTraceWord word = some (node, far) ↔
    node = (word.extractLsb' 16 16).toNat ∧ far = (word.extractLsb' 12 4).toNat ∧
    node ≠ 0 ∧ node ≠ 65535 ∧ word.extractLsb' 8 4 = 0#4 ∧ word.extractLsb' 4 4 = 9#4 ∧
    word.extractLsb' 0 4 = word.extractLsb' 28 4 ^^^ word.extractLsb' 24 4 ^^^ word.extractLsb' 20 4
      ^^^ word.extractLsb' 16 4 ^^^ word.extractLsb' 12 4 ^^^ word.extractLsb' 8 4 ^^^ word.extractLsb' 4 4

/-- QUERY port gives the record with its derived adjacency and the verification of its own link (R52, R53). -/
def Obligations.PortQueryDerivesAdjacency : Prop :=
  ∀ (tag : Tag) (port : Byte) (adjacency : Option Adjacency) (ownLink : Option Bool) (s : State), s.takes →
    s.sc.station.joined = true → s.ViewForm → s.Ranges →
    (15 < port.toNat ∨ s.portCount ≤ port.toNat →
      exec (.queryPort tag port) s = .next (s.answered ⟨.query .port, tag, .refused, .range, false, .none⟩)) ∧
    ((h : port.toNat < 16) → port.toNat < s.portCount →
      (s.pt.ports[port.toNat].trace = .dark ∨ s.pt.ports[port.toNat].trace = .looped →
        adjacency = none ∧ ownLink = none) →
      (∀ node far, s.pt.ports[port.toNat].trace = .heard node far →
        (adjacency = some .verified ↔ (∃ r ∈ s.tv.nodes, r.id = node) ∧
          ∃ l ∈ s.tv.links, l.key = ⟨node, far⟩ ∧ l.toNode = s.ownId ∧ l.toPort = port.toNat) ∧
        (adjacency = some .mismatch ↔ (∃ r ∈ s.tv.nodes, r.id = node) ∧
          ∃ l ∈ s.tv.links, l.key = ⟨node, far⟩ ∧ ¬(l.toNode = s.ownId ∧ l.toPort = port.toNat)) ∧
        (adjacency = some .unconfirmed ↔ ¬((∃ r ∈ s.tv.nodes, r.id = node) ∧
          ∃ l ∈ s.tv.links, l.key = ⟨node, far⟩)) ∧ adjacency ≠ none ∧
        (ownLink = none ↔ s.pt.ports[port.toNat].enabled = false) ∧
        (ownLink = some true ↔ s.pt.ports[port.toNat].enabled = true ∧
          ∃ l ∈ s.tv.links, l.key = ⟨s.ownId, port.toNat⟩ ∧ l.verified = true)) →
      exec (.queryPort tag port) s = .next (s.answered
        ⟨.query .port, tag, .ok, .none, false, .portQuery port.toNat s.pt.ports[port.toNat] adjacency ownLink⟩))

/-! ### The view -/

/-- QUERY node and QUERY link give the record named, or the one of least key above it, and change nothing (R38, R39). -/
def Obligations.QueriesReadTheView : Prop :=
  (∀ (tag : Tag) (node : BitVec 16) (mode : Byte) (r : NodeRecord) (s : State), s.takes →
    s.sc.station.joined = true → s.ViewForm → node ≠ 0xFFFF#16 → (mode.getLsbD 0 = false → node ≠ 0#16) →
    r ∈ s.tv.nodes →
    (mode.getLsbD 0 = false → r.id = node.toNat) →
    (mode.getLsbD 0 = true → node.toNat < r.id ∧ ∀ x ∈ s.tv.nodes, node.toNat < x.id → r.id ≤ x.id) →
    exec (.queryNode tag node mode) s = .next (s.answered ⟨.query .node, tag, .ok, .none, false,
      .node r (s.tv.links.countP (fun l => l.key.node == r.id))
        (s.tv.links.countP (fun l => l.key.node == r.id && l.verified))⟩)) ∧
  (∀ (tag : Tag) (node : BitVec 16) (mode : Byte) (s : State), s.takes →
    s.sc.station.joined = true → node ≠ 0xFFFF#16 → (mode.getLsbD 0 = false → node ≠ 0#16) →
    (∀ r ∈ s.tv.nodes, if mode.getLsbD 0 then r.id ≤ node.toNat else r.id ≠ node.toNat) →
    exec (.queryNode tag node mode) s = .next (s.answered ⟨.query .node, tag, .notFound, .none, false, .none⟩)) ∧
  (∀ (tag : Tag) (node : BitVec 16) (mode : Byte) (s : State), s.takes → s.sc.station.joined = true →
    node = 0xFFFF#16 ∨ (mode.getLsbD 0 = false ∧ node = 0#16) →
    exec (.queryNode tag node mode) s = .next (s.answered ⟨.query .node, tag, .refused, .range, false, .none⟩)) ∧
  (∀ (tag : Tag) (node : BitVec 16) (port mode : Byte) (l : LinkRecord) (s : State), s.takes →
    s.sc.station.joined = true → s.ViewForm → port.toNat ≤ 15 → node ≠ 0xFFFF#16 →
    (mode.getLsbD 0 = false → node ≠ 0#16) → l ∈ s.tv.links →
    (mode.getLsbD 0 = false → l.key = ⟨node.toNat, port.toNat⟩) →
    (mode.getLsbD 0 = true →
      (node.toNat < l.key.node ∨ (node.toNat = l.key.node ∧ port.toNat < l.key.port)) ∧
      ∀ x ∈ s.tv.links, (node.toNat < x.key.node ∨ (node.toNat = x.key.node ∧ port.toNat < x.key.port)) →
        (l.key.node < x.key.node ∨ (l.key.node = x.key.node ∧ l.key.port ≤ x.key.port))) →
    exec (.queryLink tag node port mode) s = .next (s.answered ⟨.query .link, tag, .ok, .none, false, .link l⟩)) ∧
  (∀ (tag : Tag) (node : BitVec 16) (port mode : Byte) (s : State), s.takes →
    s.sc.station.joined = true → s.ViewForm → port.toNat ≤ 15 → node ≠ 0xFFFF#16 →
    (mode.getLsbD 0 = false → node ≠ 0#16) →
    (∀ l ∈ s.tv.links, if mode.getLsbD 0 then
        l.key.node < node.toNat ∨ (l.key.node = node.toNat ∧ l.key.port ≤ port.toNat)
      else l.key ≠ ⟨node.toNat, port.toNat⟩) →
    exec (.queryLink tag node port mode) s = .next (s.answered ⟨.query .link, tag, .notFound, .none, false, .none⟩)) ∧
  (∀ (tag : Tag) (node : BitVec 16) (port mode : Byte) (s : State), s.takes → s.sc.station.joined = true →
    15 < port.toNat ∨ node = 0xFFFF#16 ∨ (mode.getLsbD 0 = false ∧ node = 0#16) →
    exec (.queryLink tag node port mode) s = .next (s.answered ⟨.query .link, tag, .refused, .range, false, .none⟩))

/-- A good frame from another origin ends ISOLATED before its block takes it: the change is marked, the content mark is
WAITING but in MUTED (log 12), and an ADVERT of class 1 is due in place 8 where R62 allows: a new entry, the entry there
with its class raised, or its follow-on (R19, R58). -/
def Obligations.GoodFrameEndsIsolation : Prop :=
  ∀ s : State,
    (s.lac.isolated = false → s.heard = { s with events := s.events + 1, lac.assembler := .waiting }) ∧
    (s.lac.isolated = true → ∀ made : Option Entry,
      made = (if (s.sc.station = .announcing ∨ s.sc.station = .operating) ∧ s.ads.postDropWait = false
        then { s with events := s.events + 1 }.advertMade 1 else s.entry 8) →
      ((s.sc.station = .announcing ∨ s.sc.station = .operating) → s.ads.postDropWait = false → s.advertsOnly) →
      s.heard = { s with
        events := s.events + 1
        lac.assembler := .waiting
        lac.isolated := false
        lac.due := s.lac.due.set 8 made
        clp.marks.isolated := true
        ads.mark := if s.sc.station = .muted then s.ads.mark else .waiting
        ads.entryPresent := s.ads.entryPresent ||
          ((s.sc.station == .announcing || s.sc.station == .operating) && !s.ads.postDropWait) })

/-- An ADVERT that is stored (R27 to R32): the record of its origin, its valid links as far as link room goes, the
others' records and links as they were but for verification. At a fresh start no peer hold of the origin stands (R27,
R110); a committed hold on a link of the origin that is lit on every link is superseded, an own one ending its slot (R32,
R103). The counter rises by 2 and by 1 for each record that goes (R37). -/
def Obligations.AdvertIsStoredWhole : Prop :=
  ∀ (origin : BitVec 16) (body : List Byte) (a : Advert) (valid : List LinkEntry) (room : Nat) (u s : State),
    s.hears origin body → s.ViewForm → s.HoldsOk → readAdvert body = some a → a.withdraw = false →
    ((s.knows origin.toNat = false ∧ s.tv.nodes.length < 64) ∨
      (∃ r, Table.lookup NodeRecord.id origin.toNat s.tv.nodes = some r ∧
        (a.fresh = true ∨ (1 ≤ (a.sequence - r.sequence).toNat ∧ (a.sequence - r.sequence).toNat ≤ 32767)))) →
    valid = validEntries a.entries →
    room = 496 - (dropLinks origin.toNat (dropLinks s.ownId s.tv.links)).length → u = s.heard →
    ∃ t, exec (.advertReceived origin body) s = .next t ∧
      Table.lookup NodeRecord.id origin.toNat t.tv.nodes =
        some ⟨origin.toNat, a.profile, a.transit, a.sequence, 0, false, valid.length - room⟩ ∧
      (∀ k, k ≠ origin.toNat →
        Table.lookup NodeRecord.id k t.tv.nodes = Table.lookup NodeRecord.id k s.tv.nodes) ∧
      (linkSet origin.toNat t.tv.links).map LinkRecord.entry = valid.take room ∧
      (dropLinks origin.toNat t.tv.links).map (fun l => { l with verified := false }) =
        (dropLinks origin.toNat s.tv.links).map (fun l => { l with verified := false }) ∧
      t.tv.viewIncomplete = (s.tv.viewIncomplete || decide (room < valid.length)) ∧
      (∀ gone : Hold → Bool,
        gone = (fun h => (a.fresh && !h.own && h.origin == origin.toNat) || t.retires origin.toNat h) →
        u.Retired t gone ∧ t.tv.counter = s.tv.counter + BitVec.ofNat 32 (2 + s.hu.holds.countP gone)) ∧
      (a.fresh = true → s.knows origin.toNat = true →
        ∀ h ∈ t.hu.holds, h.own = false → h.origin ≠ origin.toNat) ∧
      t.entry 8 = u.entry 8 ∧ t.entry 9 = u.entry 9 ∧ t.lac = { u.lac with due := t.lac.due } ∧
      t.clp = { u.clp with marks := { u.clp.marks with
        viewIncomplete := s.clp.marks.viewIncomplete || (!s.tv.viewIncomplete && decide (room < valid.length))
        overflow := t.clp.marks.overflow } } ∧
      t = { u with tv := t.tv, hu := t.hu, lac := t.lac, clp := t.clp }

/-- Which entries of an ADVERT are valid (R30): the first entry of its from-port in frame order, if its ports are at most
15 and its to-node is one; they stand in ascending from-port order, a cost of 0 as 1 (log 15). -/
def Obligations.ValidEntriesAreChosen : Prop :=
  ∀ es : List LinkEntry,
    (validEntries es).Pairwise (fun a b => a.fromPort < b.fromPort) ∧
    ∀ e : LinkEntry, e ∈ validEntries es ↔
      ∃ before x after, es = before ++ x :: after ∧ (∀ y ∈ before, y.fromPort ≠ x.fromPort) ∧
        x.fromPort ≤ 15 ∧ x.toPort ≤ 15 ∧ 1 ≤ x.toNode ∧ x.toNode ≤ 65534 ∧ e = { x with cost := max 1 x.cost }

/-- ADVERTs that store nothing (R25, R26, R28, R29): unreadable, older, or withdraws of unknown or newer origins change
nothing; an equal sequence sets the age to 0; one that finds 64 nodes sets VIEW_INCOMPLETE. -/
def Obligations.AdvertThatStoresNothing : Prop :=
  ∀ (origin : BitVec 16) (body : List Byte) (s : State), s.hears origin body →
    (readAdvert body = none → exec (.advertReceived origin body) s = .next s.heard) ∧
    (∀ a, readAdvert body = some a → s.knows origin.toNat = false → a.withdraw = true →
      exec (.advertReceived origin body) s = .next s.heard) ∧
    (∀ a, readAdvert body = some a → s.knows origin.toNat = false → a.withdraw = false → 64 ≤ s.tv.nodes.length →
      exec (.advertReceived origin body) s = .next { s.heard with
        tv.viewIncomplete := true
        clp.marks.viewIncomplete := s.clp.marks.viewIncomplete || !s.tv.viewIncomplete }) ∧
    (∀ a r, readAdvert body = some a → Table.lookup NodeRecord.id origin.toNat s.tv.nodes = some r →
      32768 ≤ (a.sequence - r.sequence).toNat → (a.withdraw = true ∨ a.fresh = false) →
      exec (.advertReceived origin body) s = .next s.heard) ∧
    (∀ a r, readAdvert body = some a → Table.lookup NodeRecord.id origin.toNat s.tv.nodes = some r →
      a.withdraw = false → a.fresh = false → a.sequence = r.sequence →
      exec (.advertReceived origin body) s = .next { s.heard with
        tv.nodes := Table.put NodeRecord.id { r with age := 0 } s.tv.nodes })

/-- The withdraw ADVERT of a known origin, not older than the record, purges it (R26, R35): its record, its links and its peer
holds go, links to it are UNVERIFIED, VIEW_INCOMPLETE clears, and HOLDS_OVERFLOW where a peer hold goes (R107), each with
its mark. The purge counts 1, and 1 for each hold that goes (R37). All else stands but for the end of isolation. -/
def Obligations.WithdrawPurgesTheOrigin : Prop :=
  ∀ (origin : BitVec 16) (body : List Byte) (a : Advert) (r : NodeRecord) (goes : Hold → Bool) (u s : State),
    s.hears origin body → s.ViewForm → s.HoldsOk → readAdvert body = some a → a.withdraw = true →
    Table.lookup NodeRecord.id origin.toNat s.tv.nodes = some r → (a.sequence - r.sequence).toNat ≤ 32767 →
    goes = (fun h => !h.own && h.origin == origin.toNat) → u = s.heard →
    exec (.advertReceived origin body) s = .next { u with
      tv := {
        nodes := s.tv.nodes.filter (fun x => x.id != origin.toNat)
        links := (dropLinks origin.toNat s.tv.links).map (fun l =>
          if l.toNode = origin.toNat then { l with verified := false } else l)
        viewIncomplete := false
        counter := s.tv.counter + BitVec.ofNat 32 (1 + s.hu.holds.countP goes) }
      hu := { s.hu with
        holds := s.hu.holds.filter (fun h => !goes h)
        overflow := s.hu.overflow && !s.hu.holds.any goes }
      clp := { u.clp with marks := { u.clp.marks with
        viewIncomplete := s.clp.marks.viewIncomplete || s.tv.viewIncomplete
        overflow := s.clp.marks.overflow || (s.hu.overflow && s.hu.holds.any goes) } } }

/-- Every step keeps the tables of the view in their form (R21, R22). -/
def Obligations.EveryStepKeepsViewForm : Prop :=
  ∀ s t : State, s.Agree → s.Ranges → s.ViewForm → step s = .next t → t.ViewForm

/-- Every step keeps verification as R33 defines it, over the tables as they stand. -/
def Obligations.EveryStepKeepsVerification : Prop :=
  ∀ s t : State, s.Agree → s.Ranges → s.ViewForm → s.Verified → step s = .next t → t.Verified

/-! ### Advertising and the line -/

/-- A SOLICIT is answered by a pull-in ADVERT of class 2 exactly in OPERATING, outside the post-drop wait, above debt -8
and with no entry present; otherwise it changes nothing (R63). -/
def Obligations.SolicitIsAnswered : Prop :=
  ∀ (origin : BitVec 16) (body : List Byte) (s : State), s.hears origin body →
    (s.heard.sc.station = .operating → s.heard.ads.postDropWait = false → s.heard.ads.debt ≠ -8 →
      s.heard.ads.entryPresent = false → s.heard.entry 8 = none →
      exec (.solicitReceived origin body) s = .next { s.heard with
        ads.entryPresent := true
        lac.due := s.heard.lac.due.set 8 (some ⟨.advert, 2, s.events + 1, 0, none, none, false⟩) }) ∧
    (s.heard.sc.station ≠ .operating ∨ s.heard.ads.postDropWait = true ∨ s.heard.ads.debt = -8 ∨
      s.heard.ads.entryPresent = true →
      exec (.solicitReceived origin body) s = .next s.heard)

/-- SENT for an ADVERT of the ADS in ANNOUNCING, OPERATING and LEAVING (R57, R58, R60, R64, R66, R68), with a follow-on or
without, which in LEAVING is the withdraw ADVERT: the sequence, the debt, the counts, the mark, the own record, the budget;
at the second ADVERT of ANNOUNCING the station enters OPERATING and JOIN completes OK (R177); the due check (R59) tells what
is due next, but in LEAVING, where there is none; and after a fresh-start ADVERT in OPERATING every hold is restated
(R97). -/
def Obligations.AdvertSentAdvancesSequence : Prop :=
  ∀ (c : Instr) (a : Attempt) (e : Entry) (r : NodeRecord) (debt : Int) (mark : ContentMark) (announced : Nat)
      (enters : Bool) (owed : Option (Fin 3)) (u s : State), s.resetHeld = false →
    s.sc.station = .announcing ∨ s.sc.station = .operating ∨ s.sc.station = .leaving → s.lac.attempt = some a →
    a.place = 8 → a.kind = .advert → succeedsBy a c → s.entry 8 = some e → s.ownRecord = some r → s.ads.debt ≤ 8 →
    debt = max (-8) (s.ads.debt - 1) → mark = (if s.ads.mark = .carried then .clear else s.ads.mark) →
    announced = (if s.sc.station = .announcing then s.ads.announceCount + 1 else s.ads.announceCount) →
    enters = decide (s.sc.station = .announcing ∧ announced = 2) →
    owed = (if s.ads.postDropWait = true ∨ e.followOn.isSome = true ∨ s.sc.station = .leaving then none
      else owedClass (if enters then .operating else s.sc.station) announced mark debt) →
    u = s.attemptOver a (8 * (a.frame.length + 4)) →
    ∃ t, exec c s = .next t ∧
      t.ads = { s.ads with
        sequence := s.ads.sequence + 1#16, debt := debt, mark := mark, announceCount := announced
        freshCount := if a.fresh then s.ads.freshCount - 1 else s.ads.freshCount
        entryPresent := e.followOn.isSome || owed.isSome } ∧
      t.sc = { u.sc with
        station := if enters then .operating else s.sc.station
        joinWaiting := if enters then none else s.sc.joinWaiting } ∧
      t.clp = { s.clp with
        completions := s.clp.completions ++ (if enters then
          (s.sc.joinWaiting.map (fun j => (⟨.join, j, .ok, .none, false, .none⟩ : Completion))).toList else [])
        reservations := s.clp.reservations - (if enters then s.sc.joinWaiting.toList.length else 0) } ∧
      t.ownRecord = some { r with sequence := s.ads.sequence + 1#16 } ∧
      t.tv = { s.tv with nodes := Table.put NodeRecord.id { r with sequence := s.ads.sequence + 1#16 } s.tv.nodes } ∧
      t.lac.budget = s.lac.budget - (a.frame.length + 4) ∧
      t.now = max s.now (a.startedAt + 8 * (a.frame.length + 4)) ∧
      t.entry 8 = (match e.followOn with
        | some f => some ⟨f.1, f.2, s.events + 1, 0, none, none, false⟩
        | none => owed.map (fun c => ⟨.advert, c, s.events + 1, 0, none, none, false⟩)) ∧
      (a.fresh = true → s.sc.station = .operating → ∀ i : Fin 8, t.entry (holdPlace i) =
        match s.slot i with
        | .live (.announced _ _) _ _ => (u.makeDue (holdPlace i) .announce 1).entry (holdPlace i)
        | .live .held _ _ => (u.makeDue (holdPlace i) .object 0).entry (holdPlace i)
        | .live .committed _ _ => (u.makeDue (holdPlace i) .object 0).entry (holdPlace i)
        | _ => s.entry (holdPlace i)) ∧
      (a.fresh = false ∨ s.sc.station ≠ .operating → ∀ i : Fin 8, t.entry (holdPlace i) = s.entry (holdPlace i)) ∧
      t.entry 9 = s.entry 9 ∧ t.lac = { u.lac with due := t.lac.due } ∧
      t = { u with lac := t.lac, tv := t.tv, ads := t.ads, sc := t.sc, clp := t.clp }

/-- Making a kind due (R3, R5, R6, R58): a new entry in an empty place; the table of R5 off the line; on the line the kind
stays fixed and a follow-on is recorded, or meets the one recorded by the same table. And the withdrawing of an entry. That
a kind already on the line is recorded as its own follow-on is log 13's reading, that an ADVERT never takes over a withdraw
ADVERT, and what a pair outside the table does, log 14's choice, and that nothing is made due in MUTED log 29's reading. -/
def Obligations.DueKindsMeetByTheTable : Prop :=
  ∀ (p : Fin 10) (k : FrameKind) (c : Fin 3) (s : State),
    (s.sc.station = .muted → s.makeDue p k c = s) ∧
    (s.sc.station ≠ .muted → s.entry p = none →
      s.makeDue p k c = { s with lac.due := s.lac.due.set p (some ⟨k, c, s.events, 0, none, none, false⟩) }) ∧
    (∀ e, s.sc.station ≠ .muted → s.entry p = some e → ∀ stays : Prop,
      stays = (((e.kind = .commit ∨ e.kind = .release) ∧ k = .object) ∨ (e.kind = .release ∧ k = .commit) ∨
        (e.kind = .withdraw ∧ k = .advert)) →
      (stays → s.makeDue p k c = s) ∧
      (¬stays → s.onLine p = false →
        (k = e.kind →
          s.makeDue p k c = { s with lac.due := s.lac.due.set p (some { e with cls := min e.cls c }) }) ∧
        (k ≠ e.kind → s.makeDue p k c = { s with lac.due := s.lac.due.set p (some
          { e with kind := k, cls := c, attempts := 0, backoffEnd := none }) })) ∧
      (¬stays → s.onLine p = true → ∀ f : FrameKind × Fin 3,
        (e.followOn = none ∧ f = (k, c)) ∨
        (∃ c', e.followOn = some (k, c') ∧ f = (k, min c' c)) ∨
        (∃ c', e.followOn = some (.release, c') ∧ (k = .object ∨ k = .commit) ∧ f = (.release, c')) ∨
        (∃ c', e.followOn = some (.commit, c') ∧ k = .object ∧ f = (.commit, c')) ∨
        (∃ c', e.followOn = some (.withdraw, c') ∧ k = .advert ∧ f = (.withdraw, c')) ∨
        (∃ c', e.followOn = some (.object, c') ∧ k = .commit ∧ f = (k, c)) ∨
        (∃ c', e.followOn = some (.announce, c') ∧ (k = .object ∨ k = .commit) ∧ f = (k, c)) ∨
        (∃ c', e.followOn = some (.advert, c') ∧ k = .withdraw ∧ f = (k, c)) ∨
        (∃ k' c', e.followOn = some (k', c') ∧ k = .release ∧ k' ≠ .release ∧ f = (k, c)) →
        s.makeDue p k c = { s with lac.due := s.lac.due.set p (some
          { e with followOn := some f, withdrawn := false }) }) ∧
      (s.onLine p = false → s.withdrawEntry p = { s with lac.due := s.lac.due.set p none }) ∧
      (s.onLine p = true → s.withdrawEntry p = { s with lac.due := s.lac.due.set p (some
        { e with withdrawn := true, followOn := none }) })) ∧
    (s.entry p = none → s.withdrawEntry p = s)

/-- The entry that starts (R4, R8, R9, R10): an entry may start under the five conditions; the first of those in
due-list order starts, with the frame its owner supplies (R67, R91); with none, nothing starts. And what transmit data and
transmit enable give of a run: the frame whole, or the part of it that went out and the abort delimiter, which takes over
at 12 bit times where no echo has risen (R1, R10 to R12, R15). That the row runs the clock on by the time
it carries is log 4's choice. -/
def Obligations.FirstEntryInOrderStarts : Prop :=
  (∀ (p : Fin 10) (e : Entry) (body : List Byte) (s : State), s.entry p = some e → s.frameBody p e.kind = some body →
    (s.mayStart p = true ↔
      ((s.sc.station = .listening ∧ p = 9) ∨ s.sc.station = .announcing ∨ s.sc.station = .operating ∨
        s.sc.station = .leaving) ∧
      s.lac.attempt = none ∧ s.transmitEnable = false ∧ s.lac.activity = false ∧
      (∀ b, e.backoffEnd = some b → b ≤ s.now ∧
        s.timing.ifg + (if e.cls = 0 then 0 else if e.cls = 1 then 8 else 24) ≤ s.now - b) ∧
      s.timing.ifg + (if e.cls = 0 then 0 else if e.cls = 1 then 8 else 24) ≤ s.lac.idle ∧
      (e.cls ≠ 0 → body.length + 11 ≤ s.lac.budget ∨
        (s.timing.budget * 16 < body.length + 11 ∧ s.lac.budget = s.timing.budget * 16)))) ∧
  (∀ (p : Fin 10) (e : Entry) (s : State), s.entry p = some e →
    (s.firstStartable = some p ↔ s.mayStart p = true ∧ ∀ (q : Fin 10) (f : Entry), s.entry q = some f →
      s.mayStart q = true → q ≠ p →
      e.cls < f.cls ∨ (e.cls = f.cls ∧ (e.dueMark < f.dueMark ∨ (e.dueMark = f.dueMark ∧ p < q))))) ∧
  (∀ s : State, s.frameBody 9 .solicit = some [] ∧
    (∀ r, s.ownRecord = some r →
      s.frameBody 8 .advert = some (Advert.bytes ⟨s.ads.sequence, decide (0 < s.ads.freshCount), false, r.transit,
        r.profile, (linkSet s.ownId s.tv.links).map LinkRecord.entry⟩) ∧
      s.frameBody 8 .withdraw = some (Advert.bytes ⟨s.ads.sequence, false, true, r.transit, r.profile, []⟩)) ∧
    (∀ (i : Fin 8) (n : BitVec 8), (s.slot i).number = some n →
      s.frameBody (holdPlace i) .release = some [n] ∧
      ∀ h ∈ s.hu.holds, h.own = true → h.number = n → s.HoldsOk →
        s.frameBody (holdPlace i) .announce = some (HoldBody.bytes ⟨n, h.priority, false, h.start, h.width, h.links⟩) ∧
        s.frameBody (holdPlace i) .object =
          some (HoldBody.bytes ⟨n, h.priority, h.committed, h.start, h.width, h.links⟩) ∧
        s.frameBody (holdPlace i) .commit = some (HoldBody.bytes ⟨n, h.priority, false, h.start, h.width, h.links⟩))) ∧
  (∀ (dt : Nat) (p : Fin 10) (e : Entry) (body : List Byte) (s : State), s.resetHeld = false →
    (s.elapse dt).firstStartable = some p → s.entry p = some e → s.frameBody p e.kind = some body →
    exec (.attemptStart dt) s = .next { s.elapse dt with
      events := s.events + 1
      lac.attempt := some ⟨p, e.kind, frameBytes e.kind s.ownId body, s.now + dt⟩
      lac.sending := some ⟨s.now + dt, frameBytes e.kind s.ownId body, none⟩
      ads.mark := if e.kind = .advert ∧ s.ads.mark = .waiting then .carried else s.ads.mark }) ∧
  (∀ (dt : Nat) (s : State), s.resetHeld = false → (s.elapse dt).firstStartable = none →
    exec (.attemptStart dt) s = .next { s.elapse dt with events := s.events + 1 }) ∧
  (∀ s : State, (s.lac.sending = none → s.transmitData = none) ∧
    (∀ x cut, s.lac.sending = some x →
      cut = (match s.lac.attempt, x.cut with
        | some a, none => if s.lac.echo = false ∧ a.startedAt + 12 ≤ s.now then some 12 else none
        | _, n => n) →
      s.transmitData = (if s.now < x.startedAt then none
        else match cut with
          | none => (lineRun x.frame)[s.now - x.startedAt]?
          | some n => ((lineRun x.frame).take n ++
              [LineBit.j, .j, .j, .j, .k, .k, .k, .k])[s.now - x.startedAt]?) ∧
      (s.transmitEnable = true ↔ x.startedAt ≤ s.now ∧ s.now < x.startedAt + (match cut with
        | none => 8 * (x.frame.length + 4)
        | some n => min n (8 * (x.frame.length + 4)) + 8))))

/-- A failed attempt, from the first to the seventh (R7, R11, R12, R13): a mismatch in the echo, an echo that does not rise
in time, or one that fell too soon and so broke the frame off. The bytes are charged, a backoff is drawn and the entry
competes again after it; with a follow-on or a withdrawal the kind is abandoned without a report (R6). That ECHO_LOST ends
the attempt whose echo fell, and what is charged for it, is log 20's reading. The mismatch is the first
bit of the echo that differs from the bit sent. -/
def Obligations.FailedAttemptBacksOff : Prop :=
  (∀ (a : Attempt) (e : Entry) (c : Instr) (u s : State), s.resetHeld = false →
    s.lac.attempt = some a → s.entry a.place = some e → s.failsBy a c u →
    (e.followOn = none → e.withdrawn = false → e.attempts < 7 →
      ∀ r : BitVec 16, r = (if s.lac.lfsr.getLsbD 0 then (s.lac.lfsr >>> 1) ^^^ 0xB400#16 else s.lac.lfsr >>> 1) →
      exec c s = .next { u with
        lac.lfsr := r
        lac.due := s.lac.due.set a.place (some { e with
          attempts := e.attempts + 1
          backoffEnd := some (u.now + r.toNat % 2 ^ (min (e.attempts + 1) 5) * 64) }) }) ∧
    (e.followOn = none → e.withdrawn = true →
      exec c s = .next { u with lac.due := s.lac.due.set a.place none }) ∧
    (∀ k cls, e.followOn = some (k, cls) →
      exec c s = .next { u with
        lac.due := s.lac.due.set a.place (some ⟨k, cls, s.events + 1, 0, none, none, false⟩) })) ∧
  (∀ (sent echo : List LineBit) (n : Nat), firstMismatch sent echo = some n ↔
    1 ≤ n ∧ n ≤ sent.length ∧ n ≤ echo.length ∧ sent[n - 1]? ≠ echo[n - 1]? ∧ ∀ k, k + 1 < n → sent[k]? = echo[k]?)

/-- The eighth failure drops the entry (R14), whichever way the attempt fails: what the owner of each kind does (R65, R66,
R93, R99, R102, R176, R177). A report that reaches a slot in another state, as that of a restated ANNOUNCE, changes nothing
more (R91, R97). In ANNOUNCING a dropped ADVERT is counted, and at the second the station enters OPERATING and
JOIN completes OK. That ECHO_LOST ends the attempt whose echo fell, and what is charged for it, is log 20's reading. -/
def Obligations.EighthFailureDropsTheEntry : Prop :=
  ∀ (a : Attempt) (e : Entry) (c : Instr) (u v s : State), s.resetHeld = false →
    s.lac.attempt = some a → s.entry a.place = some e → e.followOn = none → e.withdrawn = false → e.attempts = 7 →
    s.failsBy a c v → u = { v with lac.due := s.lac.due.set a.place none } →
    (a.kind = .object → exec c s = .next u) ∧
    (a.place = 9 → a.kind = .solicit → exec c s = .next u) ∧
    (a.place = 8 → a.kind = .advert → s.sc.station = .operating →
      exec c s = .next { u with
        ads.postDropWait := true
        ads.entryPresent := false
        ads.mark := if s.ads.mark = .carried then .waiting else s.ads.mark }) ∧
    (a.place = 8 → a.kind = .advert → s.sc.station = .announcing → s.ads.announceCount ≠ 1 →
      exec c s = .next { u with
        ads.postDropWait := true
        ads.entryPresent := false
        ads.announceCount := s.ads.announceCount + 1
        ads.mark := if s.ads.mark = .carried then .waiting else s.ads.mark }) ∧
    (a.place = 8 → a.kind = .advert → s.sc.station = .announcing → s.ads.announceCount = 1 →
      exec c s = .next { u with
        ads.postDropWait := true
        ads.entryPresent := false
        ads.announceCount := 2
        ads.mark := if s.ads.mark = .carried then .waiting else s.ads.mark
        sc.station := .operating
        sc.joinWaiting := none
        clp.completions := s.clp.completions ++
          (s.sc.joinWaiting.map (fun j => (⟨.join, j, .ok, .none, false, .none⟩ : Completion))).toList
        clp.reservations := s.clp.reservations - s.sc.joinWaiting.toList.length }) ∧
    (∀ i : Fin 8, a.place = holdPlace i →
      (a.kind = .announce ∧ ∀ n tag commit, s.slot i ≠ .live (.pending commit) n tag) ∨
      (a.kind = .commit ∧ ∀ n tag commit, s.slot i ≠ .live (.committing commit) n tag) ∨
      (a.kind = .release ∧ ∀ n tag o toEnded, s.slot i ≠ .closing n tag o toEnded) →
      exec c s = .next u) ∧
    (∀ (i : Fin 8) (n : BitVec 8) (tag commit : Tag), a.place = holdPlace i → a.kind = .commit →
      s.slot i = .live (.committing commit) n tag →
      exec c s = .next { u with
        hu.slots := u.hu.slots.set i (.live .held n tag)
        clp.completions := s.clp.completions ++ [⟨.holdCommit, commit, .mediumFailed, .none, false, .none⟩]
        clp.reservations := s.clp.reservations - 1 }) ∧
    (∀ (i : Fin 8) (n : BitVec 8) (tag : Tag) (o : HoldOutcome) (toEnded : Bool), a.place = holdPlace i →
      a.kind = .release → s.slot i = .closing n tag o toEnded →
      exec c s = .next { u with
        hu.slots := u.hu.slots.set i (if toEnded then .ended n tag o else .free) }) ∧
    (∀ (i : Fin 8) (n : BitVec 8) (tag : Tag) (commit : Option Tag), a.place = holdPlace i → a.kind = .announce →
      s.slot i = .live (.pending commit) n tag → s.HoldsOk →
      exec c s = .next { u with
        hu.holds := u.hu.holds.filter (fun h => h.code != holdCode s.ownId n)
        hu.slots := u.hu.slots.set i (.ended n tag .failed)
        tv.counter := s.tv.counter + 1#32
        clp.completions := s.clp.completions ++
          (commit.map (fun c => (⟨.holdCommit, c, .failed, .none, false, .holdNumber n⟩ : Completion))).toList
        clp.reservations := s.clp.reservations - commit.toList.length })

/-- SENT for a hold frame or the SOLICIT (R91, R93, R99, R102, R176), with a follow-on, which becomes due in the place (R6),
or without. The contest timer starts at 0: it counts up (log 31). A hold that is superseded the moment it is committed ends
at once, its slot ENDED with outcome SUPERSEDED (R99, R103). A hold is lit, which supersedes it if it is committed, exactly
when each of its links has a record whose used slots cover its window. -/
def Obligations.HoldFrameSentMovesTheSlot : Prop :=
  (∀ (c : Instr) (a : Attempt) (e : Entry) (due : Option Entry) (u s : State), s.resetHeld = false →
    s.lac.attempt = some a → s.entry a.place = some e → succeedsBy a c →
    due = e.followOn.map (fun f => ⟨f.1, f.2, s.events + 1, 0, none, none, false⟩) →
    u = (let v := s.attemptOver a (8 * (a.frame.length + 4))
      { v with lac.due := s.lac.due.set a.place due }) →
    (∀ i : Fin 8, a.place = holdPlace i → a.kind = .object → exec c s = .next u) ∧
    (a.place = 9 → a.kind = .solicit → exec c s = .next u) ∧
    (∀ (i : Fin 8) (n : BitVec 8) (tag : Tag) (commit : Option Tag), a.place = holdPlace i → a.kind = .announce →
      s.slot i = .live (.pending commit) n tag →
      exec c s = .next { u with
        hu.slots := u.hu.slots.set i (.live (.announced 0 commit) n tag) }) ∧
    (∀ i : Fin 8, a.place = holdPlace i →
      (a.kind = .announce ∧ ∀ n tag commit, s.slot i ≠ .live (.pending commit) n tag) ∨
      (a.kind = .commit ∧ ∀ n tag commit, s.slot i ≠ .live (.committing commit) n tag) ∨
      (a.kind = .release ∧ ∀ n tag o toEnded, s.slot i ≠ .closing n tag o toEnded) →
      exec c s = .next u) ∧
    (∀ (i : Fin 8) (n : BitVec 8) (tag : Tag) (o : HoldOutcome) (toEnded : Bool), a.place = holdPlace i →
      a.kind = .release → s.slot i = .closing n tag o toEnded →
      exec c s = .next { u with
        hu.slots := u.hu.slots.set i (if toEnded then .ended n tag o else .free) }) ∧
    (∀ (i : Fin 8) (n : BitVec 8) (tag commit : Tag) (h h' : Hold), a.place = holdPlace i → a.kind = .commit →
      s.slot i = .live (.committing commit) n tag → u.ownHold n = some h →
      h' = { h with committed := true, lifetime := some (s.timing.commit * 1000000) } →
      (s.isSuperseded h' = false →
        exec c s = .next { u with
          hu.holds := Table.put Hold.code h' u.hu.holds
          hu.slots := u.hu.slots.set i (.live .committed n tag)
          tv.counter := s.tv.counter + 1#32
          clp.completions := s.clp.completions ++ [⟨.holdCommit, commit, .ok, .none, false, .none⟩]
          clp.reservations := s.clp.reservations - 1 }) ∧
      (s.isSuperseded h' = true → s.HoldsOk →
        exec c s = .next { u with
          lac.due := s.lac.due.set a.place (due.filter (fun x => x.kind != .object))
          hu.holds := u.hu.holds.filter (fun x => x.code != holdCode s.ownId n)
          hu.slots := u.hu.slots.set i (.ended n tag .superseded)
          tv.counter := s.tv.counter + 2#32
          clp.completions := s.clp.completions ++ [⟨.holdCommit, commit, .ok, .none, false, .none⟩]
          clp.reservations := s.clp.reservations - 1 }))) ∧
  (∀ (h : Hold) (s : State), s.ViewForm → (∀ k ∈ h.links, k.valid = true) → h.start + h.width ≤ 64 →
    (s.isSuperseded h = true ↔ ∀ k ∈ h.links, ∃ l ∈ s.tv.links, l.key = k ∧
      ∀ n, h.start ≤ n → n < h.start + h.width → l.used.getLsbD n = true))

/-- Receive activity (R1, R9, R16, R18); dropped frames, which change no table or condition (R16); the expiry of the silence
watch, which sets ISOLATED and marks the change (R18); and an echo that matches so far, which ends nothing (R12). Activity
that rises while transmit enable is high, the abort delimiter included, is the echo until it falls (R1, R11): while receive
activity is low or is the echo no frame is received, whatever its origin (R11, R16). A rise after the 12 bit times, and a fall
of the echo in an attempt, leave the frame broken off there, with the abort delimiter in place of the rest (R11), and
ECHO_LOST then ends the attempt (log 20). The times that the rows carry or run on are log 4's choice, and that a row whose
trigger is absent changes nothing else is log 5's. -/
def Obligations.LineIsWatched : Prop :=
  (∀ (dt : Nat) (s : State), s.resetHeld = false →
    exec (.receiveActivityRise dt) s = .next { s.elapse dt with
      events := s.events + 1
      lac.activity := true
      lac.echo := (s.elapse dt).transmitEnable
      lac.sending := match s.lac.attempt with
        | none => s.lac.sending
        | some a => if s.lac.sending.bind Transmission.cut = none ∧ s.lac.echo = false ∧ a.startedAt + 12 < s.now + dt
          then some ⟨a.startedAt, a.frame, some 12⟩ else s.lac.sending
      lac.idle := 0
      lac.watch := if s.lac.watch = .off then .off else .running 0 }) ∧
  (∀ (dt : Nat) (s : State), s.resetHeld = false →
    exec (.receiveActivityFall dt) s = .next { s.elapse dt with
      events := s.events + 1, lac.activity := false, lac.echo := false, lac.assembler := .waiting
      lac.sending := match s.lac.attempt with
        | none => s.lac.sending
        | some a => if s.lac.sending.bind Transmission.cut = none ∧ s.lac.echo = true
          then some ⟨a.startedAt, a.frame, some (s.now + dt - a.startedAt)⟩ else s.lac.sending }) ∧
  (∀ (received ending : List LineBit) (s : State), s.resetHeld = false → s.lac.activity = true → s.lac.echo = false →
    (∀ x ∈ s.lac.assembler.ended (received ++ ending), judgeEnded x = none) →
    exec (.frameDropped received ending) s = .next { s with
      events := s.events + 1
      lac.assembler := s.lac.assembler.after (received ++ ending) }) ∧
  (∀ (received ending : List LineBit) (s : State), s.resetHeld = false →
    s.lac.activity = false ∨ s.lac.echo = true →
    exec (.frameDropped received ending) s = .next { s with events := s.events + 1 }) ∧
  (∀ (k : FrameKind) (origin : BitVec 16) (body : List Byte) (s : State), s.resetHeld = false →
    s.lac.activity = false ∨ s.lac.echo = true →
    exec (frameRow k origin body) s = .next { s with events := s.events + 1 }) ∧
  (∀ (e : Nat) (s : State), s.resetHeld = false → s.lac.watch = .running e →
    exec .silenceWatchExpiry s = .next { s.elapse (s.timing.watch * 1000 - e) with
      events := s.events + 1
      lac.watch := .expired
      lac.isolated := true
      clp.marks.isolated := s.clp.marks.isolated || !s.lac.isolated }) ∧
  (∀ s : State, s.resetHeld = false → (∀ e, s.lac.watch ≠ .running e) →
    exec .silenceWatchExpiry s = .next { s with events := s.events + 1 }) ∧
  (∀ (c : Instr) (echo : List LineBit) (a : Attempt) (s : State), s.resetHeld = false → s.lac.attempt = some a →
    ((c = .collision echo ∧ firstMismatch (lineRun a.frame) echo = none ∧ echo.length < 8 * (a.frame.length + 4)) ∨
      (c = .echoLost ∧ s.lac.echo = true ∧ s.lac.sending.bind Transmission.cut = none)) →
    exec c s = .next { s with events := s.events + 1 }) ∧
  (∀ (c : Instr) (echo : List LineBit) (s : State), s.resetHeld = false → s.lac.attempt = none →
    c = .collision echo ∨ c = .attemptSucceeded ∨ c = .echoLost →
    exec c s = .next { s with events := s.events + 1 })

/-- The backoff generator never reaches 0 from a value that is not 0, and every backoff is a multiple of 64 bit times up
to 1,984 (R13). -/
def Obligations.BackoffStaysInBounds : Prop :=
  (∀ r : BitVec 16, r ≠ 0#16 → advanceLfsr r ≠ 0#16) ∧
  (∀ (r : BitVec 16) (n : Nat), ∃ k, backoffBits r n = k * 64 ∧ k < 2 ^ (min n 5) ∧ backoffBits r n ≤ 1984)

/-- Every step keeps the due list in its form (R3, R5, R6, R14). -/
def Obligations.EveryStepKeepsDueList : Prop :=
  ∀ s t : State, s.Agree → s.DueOk → step s = .next t → t.DueOk

/-! ### Spectrum and holds -/

/-- A window is usable exactly when none of its slots is used, blocked or held (R85); holds are ranked by the four tests,
which decide between any two keys, and overlap on a common key and a common slot (R89). -/
def Obligations.UsabilityAndRank : Prop :=
  (∀ (l : LinkRecord) (start width : Nat) (s : State), s.BlocksOk → l.key.valid = true → start + width ≤ 64 →
    (s.usable l start width = true ↔ ∀ n, start ≤ n → n < start + width →
      l.used.getLsbD n = false ∧ (∀ b ∈ s.hu.blocks, b.key = l.key → b.mask.getLsbD n = false) ∧
      ∀ h ∈ s.hu.holds, l.key ∈ h.links → ¬(h.start ≤ n ∧ n < h.start + h.width))) ∧
  (∀ a b : Hold, a.outranks b = true ↔
    (a.established = true ∧ b.established = false) ∨
    (a.established = b.established ∧ (b.priority < a.priority ∨ (a.priority = b.priority ∧
      (a.origin < b.origin ∨ (a.origin = b.origin ∧ a.number.toNat < b.number.toNat)))))) ∧
  (∀ a b : Hold, a.origin ≠ b.origin ∨ a.number ≠ b.number → (a.outranks b = true ↔ b.outranks a = false)) ∧
  (∀ a b c : Hold, a.outranks b = true → b.outranks c = true → a.outranks c = true) ∧
  (∀ a b : Hold, a.overlaps b = true ↔ (∃ k, k ∈ a.links ∧ k ∈ b.links) ∧
    ∃ n, a.start ≤ n ∧ n < a.start + a.width ∧ b.start ≤ n ∧ n < b.start + b.width)

/-- BLOCK, case by case (R86, R87): the block table, the view change counter and the completion. -/
def Obligations.BlockRequestsSetAndClear : Prop :=
  ∀ (tag : Tag) (node : BitVec 16) (port operation : Byte) (mask : SlotMap) (c : Instr) (k : LinkKey) (s : State),
    s.takes → s.BlocksOk → k = ⟨node.toNat, port.toNat⟩ →
    c = .blockSet tag node port operation mask ∨ c = .blockClear tag node port operation mask →
    (s.sc.station = .unconfigured → exec c s = .next (s.answered ⟨.block, tag, .sequence, .none, false, .none⟩)) ∧
    (s.sc.station ≠ .unconfigured →
      k.node = 0 ∨ k.node = 65535 ∨ 15 < k.port ∨ (operation ≠ 0#8 ∧ operation ≠ 1#8) →
      exec c s = .next (s.answered ⟨.block, tag, .refused, .range, false, .none⟩)) ∧
    (s.sc.station ≠ .unconfigured → k.node ≠ 0 → k.node ≠ 65535 → k.port ≤ 15 →
      (∀ b ∈ s.hu.blocks, b.key = k → operation = 0#8 ∨ operation = 1#8 → ∀ m : SlotMap,
        m = (if operation = 0#8 then b.mask ||| mask else b.mask &&& ~~~mask) →
        exec c s = .next (State.answered ⟨.block, tag, .ok, .none, false, .block k m⟩ { s with
          hu.blocks := (s.hu.blocks.map (fun x : Block => if x.key = k then ⟨k, m⟩ else x)).filter
            (fun x : Block => x.mask != 0)
          tv.counter := s.tv.counter + (if m = b.mask then 0#32 else 1#32) })) ∧
      ((∀ b ∈ s.hu.blocks, b.key ≠ k) →
        ((operation = 0#8 ∧ mask = 0#64) ∨ operation = 1#8 →
          exec c s = .next (s.answered ⟨.block, tag, .ok, .none, false, .block k 0#64⟩)) ∧
        (operation = 0#8 → mask ≠ 0#64 → s.hu.blocks.length < 32 →
          exec c s = .next (State.answered ⟨.block, tag, .ok, .none, false, .block k mask⟩ { s with
            hu.blocks := insertSorted Block.code ⟨k, mask⟩ s.hu.blocks
            tv.counter := s.tv.counter + 1#32 })) ∧
        (operation = 0#8 → mask ≠ 0#64 → s.hu.blocks.length = 32 →
          exec c s = .next (s.answered ⟨.block, tag, .tableFull, .none, false, .none⟩))))

/-- Every step keeps the block table in its form (R86). -/
def Obligations.EveryStepKeepsBlocks : Prop :=
  ∀ s t : State, s.BlocksOk → step s = .next t → t.BlocksOk

/-- HOLD COMMIT, slot state by slot state (R98). -/
def Obligations.HoldCommitActsOnTheSlot : Prop :=
  (∀ (tag : Tag) (n : Byte) (s : State), s.takes → s.sc.station.joined = false →
    exec (.holdCommit tag n) s = .next (s.answered ⟨.holdCommit, tag, .notJoined, .none, false, .none⟩)) ∧
  ∀ (tag : Tag) (n : Byte) (s : State), s.takes → s.sc.station.joined = true →
    ((∀ i : Fin 8, (s.slot i).number ≠ some n) →
      exec (.holdCommit tag n) s = .next (s.answered ⟨.holdCommit, tag, .notFound, .none, false, .none⟩)) ∧
    (∀ (i : Fin 8) (t : Tag), (∀ j : Fin 8, (s.slot j).number = some n → j = i) →
      (s.slot i = .live (.pending none) n t →
        exec (.holdCommit tag n) s = .next (State.accepted { s with
          hu.slots := s.hu.slots.set i (.live (.pending (some tag)) n t) })) ∧
      (∀ e, s.slot i = .live (.announced e none) n t →
        exec (.holdCommit tag n) s = .next (State.accepted { s with
          hu.slots := s.hu.slots.set i (.live (.announced e (some tag)) n t) })) ∧
      (s.slot i = .live .held n t →
        exec (.holdCommit tag n) s = .next ((State.accepted { s with
          hu.slots := s.hu.slots.set i (.live (.committing tag) n t) }).makeDue (holdPlace i) .commit 1)) ∧
      ((∃ waiting, s.slot i = .live (.pending (some waiting)) n t ∨
          (∃ e, s.slot i = .live (.announced e (some waiting)) n t) ∨ s.slot i = .live (.committing waiting) n t) →
        exec (.holdCommit tag n) s = .next (s.answered ⟨.holdCommit, tag, .inProgress, .none, false, .none⟩)) ∧
      (s.slot i = .live .committed n t →
        exec (.holdCommit tag n) s = .next (s.answered ⟨.holdCommit, tag, .ok, .none, false, .none⟩)) ∧
      (∀ o, s.slot i = .ended n t o ∨ (∃ toEnded, s.slot i = .closing n t o toEnded) →
        exec (.holdCommit tag n) s =
          .next (s.answered ⟨.holdCommit, tag, o.status, .none, false, .holdNumber n⟩)))

/-- HOLD RELEASE (R100): the record goes, a waiting HOLD COMMIT completes RELEASED before the HOLD RELEASE does, and the
slot closes with a RELEASE due, or is free at once where no receiver can hold the hold. -/
def Obligations.HoldReleaseEndsTheHold : Prop :=
  (∀ (tag : Tag) (n : Byte) (s : State), s.takes → s.sc.station.joined = false →
    exec (.holdRelease tag n) s = .next (s.answered ⟨.holdRelease, tag, .notJoined, .none, false, .none⟩)) ∧
  ∀ (tag : Tag) (n : Byte) (s : State), s.takes → s.sc.station.joined = true →
    ((∀ i : Fin 8, (s.slot i).number ≠ some n) →
      exec (.holdRelease tag n) s = .next (s.answered ⟨.holdRelease, tag, .notFound, .none, false, .none⟩)) ∧
    (∀ (i : Fin 8) (t : Tag), (∀ j : Fin 8, (s.slot j).number = some n → j = i) →
      (∀ o, s.slot i = .ended n t o ∨ (∃ toEnded, s.slot i = .closing n t o toEnded) →
        exec (.holdRelease tag n) s =
          .next (s.answered ⟨.holdRelease, tag, o.status, .none, false, .holdNumber n⟩)) ∧
      (∀ sub, s.slot i = .live sub n t → s.HoldsOk → ∀ ended closing freed : State,
        ended = { s with
          clp.completions := s.clp.completions ++
            (sub.commitTag.map (fun c => (⟨.holdCommit, c, .released, .none, false, .holdNumber n⟩ : Completion))).toList
          clp.reservations := s.clp.reservations - sub.commitTag.toList.length } →
        closing = ended.ownGone i n (.closing n t .released false) → freed = ended.ownGone i n .free →
        ((∀ commit, sub ≠ .pending commit) ∨ s.announceOnLine i = true →
          exec (.holdRelease tag n) s = .next ((State.answered
            ⟨.holdRelease, tag, .released, .none, false, .holdNumber n⟩ closing).makeDue (holdPlace i) .release 1)) ∧
        ((∃ commit, sub = .pending commit) → s.announceOnLine i = false →
          exec (.holdRelease tag n) s = .next (State.answered
            ⟨.holdRelease, tag, .released, .none, false, .holdNumber n⟩ (freed.withdrawEntry (holdPlace i))))))

/-- POLL lists the ENDED slots and frees them (R115); QUERY own hold gives a slot with its record, or what holds and
blocks claim of a link, and changes nothing (R116). A timer's milliseconds are exact at a whole millisecond and either way
within one, the model's choice (log 6), and the contest timer is reported as the time elapsed, for it counts up (log 31). -/
def Obligations.HoldsAreRead : Prop :=
  (∀ (tag : Tag) (s : State), s.takes → s.sc.station.joined = false →
    exec (.poll tag) s = .next (s.answered ⟨.poll, tag, .notJoined, .none, false, .none⟩)) ∧
  (∀ (tag : Tag) (s : State), s.takes → s.sc.station.joined = true →
    exec (.poll tag) s = .next (State.answered
      ⟨.poll, tag, .ok, .none, false, .ended (allSlots.filterMap (fun i =>
        match s.slot i with
        | .ended n t o => some (n, o, t)
        | _ => none))⟩
      { s with hu.slots := s.hu.slots.map (fun x =>
        match x with
        | .ended _ _ _ => .free
        | y => y) })) ∧
  (∀ (tag : Tag) (n : Byte) (s : State), s.takes → s.sc.station.joined = true →
    ((∀ i : Fin 8, (s.slot i).number ≠ some n) →
      exec (.queryOwnHold tag n) s = .next (s.answered ⟨.query .ownHold, tag, .notFound, .none, false, .none⟩)) ∧
    (∀ i : Fin 8, (s.slot i).number = some n → (∀ j : Fin 8, (s.slot j).number = some n → j = i) →
      ((s.slot i).isLive = false →
        exec (.queryOwnHold tag n) s = .next (s.answered
          ⟨.query .ownHold, tag, .ok, .none, false, .ownHold i.val (s.slot i) none none⟩)) ∧
      (∀ sub t h, s.slot i = .live sub n t → h ∈ s.hu.holds → h.origin = s.ownId → h.number = n → s.HoldsOk →
        ∃ ms, exec (.queryOwnHold tag n) s = .next (s.answered
            ⟨.query .ownHold, tag, .ok, .none, false, .ownHold i.val (s.slot i) (some h) ms⟩) ∧
          ((∃ commit, sub = .pending commit) → ms = none) ∧
          (∀ commit e, sub = .announced e commit →
            ∃ m, ms = some m ∧ (m = e / 1000 ∨ (m = e / 1000 + 1 ∧ e % 1000 ≠ 0))) ∧
          (∀ l, (∀ commit, sub ≠ .pending commit) → (∀ commit e, sub ≠ .announced e commit) → h.lifetime = some l →
            ∃ m, ms = some m ∧ (m = l / 1000 ∨ (m = l / 1000 + 1 ∧ l % 1000 ≠ 0)))))) ∧
  (∀ (tag : Tag) (node : BitVec 16) (port : Byte) (s : State), s.takes → s.sc.station.joined = true →
    (node = 0#16 ∨ node = 0xFFFF#16 ∨ 15 < port.toNat →
      exec (.queryOwnHoldLink tag node port) s =
        .next (s.answered ⟨.query .ownHold, tag, .refused, .range, false, .none⟩)) ∧
    (node ≠ 0#16 → node ≠ 0xFFFF#16 → port.toNat ≤ 15 → s.BlocksOk → (∀ h ∈ s.hu.holds, h.start + h.width ≤ 64) →
      ∃ mask held : SlotMap, exec (.queryOwnHoldLink tag node port) s = .next (s.answered
          ⟨.query .ownHold, tag, .ok, .none, false, .linkHolds mask held
            (s.hu.holds.countP (fun h : Hold => h.links.contains ⟨node.toNat, port.toNat⟩))⟩) ∧
        (∀ b ∈ s.hu.blocks, b.key = ⟨node.toNat, port.toNat⟩ → mask = b.mask) ∧
        ((∀ b ∈ s.hu.blocks, b.key ≠ ⟨node.toNat, port.toNat⟩) → mask = 0#64) ∧
        ∀ k, held.getLsbD k = true ↔ ∃ h ∈ s.hu.holds, (⟨node.toNat, port.toNat⟩ : LinkKey) ∈ h.links ∧
          h.start ≤ k ∧ k < h.start + h.width))

/-- An ANNOUNCE, OBJECT or COMMIT from another origin (R104 to R108): ignored, a refresh, a change of window or links, or
a new incoming hold, which is discarded, stored after its rivals went, superseded as it is stored (R103), or finds no place.
HOLD COMMITs that wait on lost holds complete LOST in rank order from the highest (log 33, a reading of R106), and a second
OBJECT is recorded behind one on the line (log 13). -/
def Obligations.IncomingHoldsAreCompared : Prop :=
  ∀ (k : FrameKind) (origin : BitVec 16) (body : List Byte) (c : Instr) (u : State) (s : State),
    s.hears origin body → holdRow k origin body = some c → u = s.heard →
    (s.knows origin.toNat = false ∨ readHoldBody body = none → exec c s = .next u) ∧
    (∀ (b : HoldBody) (h stored : Hold), s.knows origin.toNat = true → readHoldBody body = some b →
      h = incomingHold k origin b → s.HoldsOk →
      stored = { h with lifetime := some (if h.committed then s.timing.commit * 1000000 + 1000000
        else s.timing.contest * 1000 + s.timing.hold * 1000000 + 1000000) } →
      (∀ r ∈ s.hu.holds, r.code = h.code → r.start = h.start → r.width = h.width → r.links = h.links → ∀ r' : Hold,
        r' = { r with
          established := r.established || h.established
          committed := r.committed || h.committed
          lifetime := some (if r.committed || h.committed then s.timing.commit * 1000000 + 1000000
            else s.timing.contest * 1000 + s.timing.hold * 1000000 + 1000000) } →
        (r'.committed = r.committed ∨ s.isSuperseded r' = false →
          exec c s = .next { u with
            hu.holds := s.hu.holds.map (fun x => if x.code = h.code then r' else x)
            tv.counter := s.tv.counter +
              (if r'.established = r.established ∧ r'.committed = r.committed then 0#32 else 1#32) }) ∧
        (r'.committed ≠ r.committed → s.isSuperseded r' = true →
          exec c s = .next (({ u with tv.counter := s.tv.counter + 1#32 }).peerGone h.code))) ∧
      (∀ r ∈ s.hu.holds, r.code = h.code → r.start ≠ h.start ∨ r.width ≠ h.width ∨ r.links ≠ h.links →
        exec c s = exec c (s.peerGone h.code)) ∧
      ((∀ r ∈ s.hu.holds, r.code ≠ h.code) →
        ((∃ r ∈ s.hu.holds, r.overlaps h = true ∧ r.outranks h = true) →
          ∃ due, exec c s = .next { u with lac.due := due } ∧ due[8] = u.entry 8 ∧ due[9] = u.entry 9 ∧
            ∀ (i : Fin 8) (objects : Prop), objects = (∃ (sub : Substate) (n : BitVec 8) (t : Tag) (r : Hold),
              s.slot i = .live sub n t ∧ (sub = .held ∨ sub = .committed ∨ ∃ commit, sub = .committing commit) ∧
              r ∈ s.hu.holds ∧ r.origin = s.ownId ∧ r.number = n ∧ r.overlaps h = true ∧ r.outranks h = true) →
              (objects → due[holdPlace i] = (u.makeDue (holdPlace i) .object 0).entry (holdPlace i)) ∧
              (¬objects → due[holdPlace i] = u.entry (holdPlace i))) ∧
        ((∀ r ∈ s.hu.holds, r.overlaps h = false) →
          (s.peerHolds < 40 → h.committed = false ∨ s.isSuperseded stored = false →
            exec c s = .next { u with
              hu.holds := insertSorted Hold.code stored s.hu.holds, tv.counter := s.tv.counter + 1#32 }) ∧
          (s.peerHolds < 40 → h.committed = true → s.isSuperseded stored = true →
            exec c s = .next (({ u with tv.counter := s.tv.counter + 1#32 }).peerGone h.code)) ∧
          (40 ≤ s.peerHolds → exec c s = .next { u with
            hu.overflow := true, clp.marks.overflow := s.clp.marks.overflow || !s.hu.overflow })) ∧
        (∀ (rivals : List Hold) (superseded : Bool), rivals = s.hu.holds.filter (fun r => r.overlaps h) → rivals ≠ [] →
          (∀ r ∈ rivals, h.outranks r = true) → superseded = (h.committed && s.isSuperseded stored) →
          ∃ (t : State) (ranked : List Hold) (lost : List Completion), exec c s = .next t ∧
            (s.peerHolds < 40 ∨ (∃ r ∈ rivals, r.own = false) → superseded = false →
              t.hu.holds = insertSorted Hold.code stored (s.hu.holds.filter (fun r => !r.overlaps h)) ∧
              t.tv.counter = s.tv.counter + BitVec.ofNat 32 (rivals.length + 1) ∧
              t.hu.overflow = (s.hu.overflow && rivals.all Hold.own)) ∧
            (s.peerHolds < 40 ∨ (∃ r ∈ rivals, r.own = false) → superseded = true →
              t.hu.holds = s.hu.holds.filter (fun r => !r.overlaps h) ∧
              t.tv.counter = s.tv.counter + BitVec.ofNat 32 (rivals.length + 2) ∧ t.hu.overflow = false) ∧
            (40 ≤ s.peerHolds → (∀ r ∈ rivals, r.own = true) →
              t.hu.holds = s.hu.holds.filter (fun r => !r.overlaps h) ∧
              t.tv.counter = s.tv.counter + BitVec.ofNat 32 rivals.length ∧ t.hu.overflow = true) ∧
            t.clp.marks.overflow = (s.clp.marks.overflow || (s.hu.overflow != t.hu.overflow)) ∧
            (∀ i : Fin 8, (∃ r ∈ rivals, r.own = true ∧ (s.slot i).number = some r.number) →
              (∀ sub n tag, s.slot i = .live sub n tag → t.slot i = .ended n tag .lost) ∧
              t.entry (holdPlace i) = (u.withdrawEntry (holdPlace i)).entry (holdPlace i)) ∧
            (∀ i : Fin 8, (∀ r ∈ rivals, r.own = true → (s.slot i).number ≠ some r.number) →
              t.slot i = s.slot i ∧ t.entry (holdPlace i) = u.entry (holdPlace i)) ∧
            ranked.Perm rivals ∧ ranked.Pairwise (fun x y => x.outranks y = true) ∧
            lost = ranked.filterMap (fun r => if r.own then allSlots.findSome? (fun i =>
              match s.slot i with
              | .live sub n _ => if n = r.number then
                  sub.commitTag.map (fun c => (⟨.holdCommit, c, .lost, .none, false, .holdNumber n⟩ : Completion))
                else none
              | _ => none) else none) ∧
            t.clp.completions = s.clp.completions ++ lost ∧
            t.clp.reservations = s.clp.reservations - lost.length ∧
            t.entry 8 = u.entry 8 ∧ t.entry 9 = u.entry 9 ∧
            t = { u with
              lac := { u.lac with due := t.lac.due }
              tv := { s.tv with counter := t.tv.counter }
              hu := { s.hu with holds := t.hu.holds, slots := t.hu.slots, overflow := t.hu.overflow }
              clp := { u.clp with completions := t.clp.completions, reservations := t.clp.reservations
                                  marks := { u.clp.marks with overflow := t.clp.marks.overflow } } })))

/-- The ends of contests and lifetimes, and a RELEASE from another origin (R94, R101, R108, R109). A timer's row runs the
clock on by what its timer has left (log 4), the contest timer counting up (log 31), and a row whose timer does not run
changes nothing but the event number (log 5): the model's choices. -/
def Obligations.TimersAndReleasesEndHolds : Prop :=
  (∀ (origin : BitVec 16) (body : List Byte) (u : State) (s : State), s.hears origin body → u = s.heard →
    (s.knows origin.toNat = false ∨ body.length ≠ 1 ∨
        (∃ n, body = [n] ∧ ∀ r ∈ s.hu.holds, r.code ≠ holdCode origin.toNat n) →
      exec (.releaseReceived origin body) s = .next u) ∧
    (∀ n r, body = [n] → s.HoldsOk → r ∈ s.hu.holds → r.code = holdCode origin.toNat n →
      exec (.releaseReceived origin body) s = .next (u.peerGone r.code))) ∧
  (∀ (origin : BitVec 16) (n : Byte) (s : State), s.resetHeld = false → s.HoldsOk →
    ((∀ r ∈ s.hu.holds, r.code = holdCode origin.toNat n → r.own = true) →
      exec (.peerLifetimeExpiry origin n) s = .next { s with events := s.events + 1 }) ∧
    (∀ r l, r ∈ s.hu.holds → r.code = holdCode origin.toNat n → r.own = false → r.lifetime = some l →
      exec (.peerLifetimeExpiry origin n) s =
        .next (({ s with events := s.events + 1 }.elapse l).peerGone r.code))) ∧
  (∀ (i : Fin 8) (e : Nat) (commit : Option Tag) (n : BitVec 8) (t : Tag) (h : Hold) (u : State) (s : State),
    s.resetHeld = false → s.slot i = .live (.announced e commit) n t →
    u = { s with events := s.events + 1 }.elapse (s.timing.contest * 1000 - e) → u.HoldsOk → h ∈ u.hu.holds →
    h.origin = s.ownId → h.number = n → ∀ raised : State,
    raised = { u with
      hu.holds := u.hu.holds.map (fun x => if x.code = h.code
        then { h with established := true, lifetime := some (s.timing.hold * 1000000) } else x)
      tv.counter := u.tv.counter + 1#32 } →
    (commit = none → exec (.contestExpiry i) s = .next { raised with
      hu.slots := u.hu.slots.set i (.live .held n t) }) ∧
    (∀ c, commit = some c → exec (.contestExpiry i) s = .next (State.makeDue (holdPlace i) .commit 1 { raised with
      hu.slots := u.hu.slots.set i (.live (.committing c) n t) }))) ∧
  (∀ (i : Fin 8) (s : State), s.resetHeld = false →
    (∀ e commit n t, s.slot i ≠ .live (.announced e commit) n t) →
    exec (.contestExpiry i) s = .next { s with events := s.events + 1 }) ∧
  (∀ (i : Fin 8) (n : BitVec 8) (t : Tag) (h : Hold) (l : Nat) (s : State), s.resetHeld = false → s.HoldsOk →
    s.slot i = .live .held n t ∨ s.slot i = .live .committed n t → h ∈ s.hu.holds → h.origin = s.ownId →
    h.number = n → h.lifetime = some l →
    exec (.holdLifetimeExpiry i) s = .next (State.makeDue (holdPlace i) .release 1
      (({ s with events := s.events + 1 }.elapse l).ownGone i n (.closing n t .expired true)))) ∧
  (∀ (i : Fin 8) (s : State), s.resetHeld = false →
    (∀ n t, s.slot i ≠ .live .held n t ∧ s.slot i ≠ .live .committed n t) →
    exec (.holdLifetimeExpiry i) s = .next { s with events := s.events + 1 })

/-- Every step keeps the hold table and the slots in their form: no two live records overlap, own records stand for the
LIVE slots, at most 40 peers, each of a known origin (R88, R90, R104, R106). -/
def Obligations.EveryStepKeepsHolds : Prop :=
  ∀ s t : State, s.Agree → s.Ranges → s.ViewForm → s.HoldsOk → step s = .next t → t.HoldsOk

/-! ### Path search -/

/-- PATH in OPERATING and MUTED: what is refused, what is clamped, and the request that joins the queue (R118 to R121,
R189). ABORT finds the oldest request with its tag that is not marked, and a marked search ends in place of its next step
(R137, R138). That the row of such an end changes nothing where no search is marked is the model's choice (log 5). -/
def Obligations.PathRequestsQueueAndAbort : Prop :=
  (∀ (tag : Tag) (b : PathBody) (lo hi : Nat) (dmin dmax : Int) (nodes : List Nat) (keys : List LinkKey) (bad : Prop)
      (q : PathRequest) (s : State), s.takes → s.psu.queue.length < 4 → s.sc.station = .operating ∨ s.sc.station = .muted →
    lo = (if b.options.getLsbD 1 then b.lo.toNat else 0) → hi = (if b.options.getLsbD 1 then b.hi.toNat else 63) →
    dmin = max (-8388607) b.dmin.toInt → dmax = min 8388607 b.dmax.toInt →
    nodes = ([0, 1, 2, 3] : List (Fin 4)).filterMap (fun (i : Fin 4) =>
      if b.nodeMask.getLsbD i.val then some b.nodes[i].toNat else none) →
    keys = ([0, 1, 2, 3] : List (Fin 4)).filterMap (fun (i : Fin 4) =>
      if b.keyMask.getLsbD i.val then some ⟨b.keys[i].1.toNat, b.keys[i].2.toNat⟩ else none) →
    bad = (b.source = 0#16 ∨ b.source = 0xFFFF#16 ∨ b.destination = 0#16 ∨ b.destination = 0xFFFF#16 ∨
      b.source = b.destination ∨ b.width = 0#8 ∨ 8 < b.width.toNat ∨ 2 < b.fitPolicy.toNat ∨ 63 < lo ∨ 63 < hi ∨
      hi + 1 < lo + b.width.toNat ∨ b.maxHops = 0#8 ∨ 3 < b.priority.toNat ∨ dmax < dmin ∨
      (∃ n ∈ nodes, n = 0 ∨ n = 65535) ∨ (∃ k ∈ keys, k.node = 0 ∨ k.node = 65535 ∨ 15 < k.port) ∨
      b.source.toNat ∈ nodes ∨ b.destination.toNat ∈ nodes) →
    q = { tag := tag, source := b.source.toNat, destination := b.destination.toNat, width := b.width.toNat
          fit := if b.fitPolicy = 0#8 then .first else if b.fitPolicy = 1#8 then .last else .best
          lo := lo, hi := hi, budget := min 1048575 b.budget.toNat, dmin := dmin, dmax := dmax
          maxHops := min 16 b.maxHops.toNat, priority := b.priority.toNat, hold := b.options.getLsbD 0
          excludedNodes := nodes, excludedKeys := keys
          clamped := decide (16 < b.maxHops.toNat ∨ 1048575 < b.budget.toNat ∨ b.dmin.toInt < -8388607 ∨
            8388607 < b.dmax.toInt) } →
    (bad → exec (.path tag b) s = .next (s.answered ⟨.path, tag, .refused, .range, false, .none⟩)) ∧
    (¬bad → exec (.path tag b) s = .next (State.accepted { s with psu.queue := s.psu.queue ++ [q] }))) ∧
  (∀ (tag sought : Tag) (s : State), s.takes →
    (∀ c r rest, s.psu.context = some c → s.psu.queue = r :: rest → r.tag = sought → c.abortTag = none →
      exec (.abort tag sought) s = .next (State.accepted { s with psu.context := some { c with abortTag := some tag } })) ∧
    (∀ before r after, s.psu.queue = before ++ r :: after → r.tag = sought →
      ((s.psu.context = none ∧ ∀ x ∈ before, x.tag ≠ sought) ∨
        (∃ c head skipped, s.psu.context = some c ∧ before = head :: skipped ∧
          (head.tag ≠ sought ∨ c.abortTag ≠ none) ∧ ∀ x ∈ skipped, x.tag ≠ sought)) →
      exec (.abort tag sought) s = .next (State.answered ⟨.abort, tag, .ok, .none, false, .none⟩ { s with
        psu.queue := before ++ after
        clp.completions := s.clp.completions ++ [⟨.path, r.tag, .aborted, .none, r.clamped, .aborted 0⟩]
        clp.reservations := s.clp.reservations - 1 })) ∧
    ((s.psu.context = none ∧ ∀ x ∈ s.psu.queue, x.tag ≠ sought) ∨
      (∃ c head rest, s.psu.context = some c ∧ s.psu.queue = head :: rest ∧
        (head.tag ≠ sought ∨ c.abortTag ≠ none) ∧ ∀ x ∈ rest, x.tag ≠ sought) →
      exec (.abort tag sought) s = .next (s.answered ⟨.abort, tag, .notFound, .none, false, .none⟩))) ∧
  (∀ (command : Instr) (c : Context) (tag : Tag) (s : State), s.resetHeld = false → s.psu.context = some c →
    c.abortTag = some tag →
    command = .searchAbortEnd ∨ command = .passStart ∨ command = .selectionStep ∨ command = .searchCompletion →
    exec command s = .next (State.searchOver
      [⟨.path, c.request.tag, .aborted, .none, c.request.clamped, .aborted c.passes⟩,
        ⟨.abort, tag, .ok, .none, false, .none⟩] { s with events := s.events + 1 })) ∧
  (∀ s : State, s.resetHeld = false → (∀ c, s.psu.context = some c → c.abortTag = none) →
    exec .searchAbortEnd s = .next { s with events := s.events + 1 })

/-- The start of a search and the start of a pass (R122, R123, R127): the context in full, the source label with the
effective add penalty of its node, and the window that follows a pass without a result. That SEARCH_START changes nothing
with a search in flight or an empty queue is the model's choice (log 5). -/
def Obligations.SearchesAndPassesStart : Prop :=
  (∀ (r : PathRequest) (rest : List PathRequest) (s : State), s.resetHeld = false → s.psu.context = none →
    s.psu.queue = r :: rest →
    ((∃ x ∈ s.tv.nodes, x.id = r.source) → (∃ x ∈ s.tv.nodes, x.id = r.destination) →
      exec .searchStart s = .next { s with
        events := s.events + 1
        psu.context := some
          { request := r, abortTag := none, snapshot := s.pf.profiles, startCounter := s.tv.counter
            window := if r.fit = .last then r.hi + 1 - r.width else r.lo
            passes := 0, frontier := [], tree := [], bestArrival := none, passPruned := false, anyPruned := false
            bestResult := none, phase := .passStart } }) ∧
    ((∀ x ∈ s.tv.nodes, x.id ≠ r.source) ∨ (∀ x ∈ s.tv.nodes, x.id ≠ r.destination) →
      exec .searchStart s = .next (State.searchOver
        [⟨.path, r.tag, .noPath, .unknownEnd, r.clamped,
          .noPath ⟨false, false, s.tv.viewIncomplete, s.lac.isolated, s.hu.overflow, false⟩ 0⟩]
        { s with events := s.events + 1 }))) ∧
  (∀ s : State, s.resetHeld = false → s.psu.context ≠ none ∨ s.psu.queue = [] →
    exec .searchStart s = .next { s with events := s.events + 1 }) ∧
  (∀ (c cleared : Context) (s : State), s.resetHeld = false → s.psu.context = some c → c.abortTag = none →
    c.phase = .passStart → s.ViewForm →
    cleared = { c with passes := c.passes + 1, frontier := [], tree := [], bestArrival := none, passPruned := false } →
    (∀ x ∈ s.tv.nodes, x.id = c.request.source → ∀ (h : x.profile < 16) (noise : Nat),
      noise = effectivePenalty c.snapshot[x.profile].add c.snapshot[x.profile].penaltyTrim →
      (noise ≤ c.request.budget → exec .passStart s = .next { s with
        events := s.events + 1
        psu.context := some { cleared with
          frontier := [⟨c.request.source, 0, noise, 0, 0, none⟩], phase := .selecting } }) ∧
      (c.request.budget < noise → exec .passStart s = .next { s with
        events := s.events + 1, psu.context := some cleared.swept })) ∧
    ((∀ x ∈ s.tv.nodes, x.id ≠ c.request.source) → exec .passStart s = .next { s with
      events := s.events + 1, psu.context := some cleared.swept }))

/-- A selection step (R125, R128 to R133, R124): the least of the frontier and the best arrival, the end of the pass with
its path, the settling of a node, and what one link of it gives. -/
def Obligations.SelectionTakesTheLeast : Prop :=
  (∀ a b : Label, a.better b = true ↔ a.cost < b.cost ∨ (a.cost = b.cost ∧ (a.noise < b.noise ∨
    (a.noise = b.noise ∧ (a.hops < b.hops ∨ (a.hops = b.hops ∧ a.node < b.node)))))) ∧
  (∀ (c : Context) (s : State), s.resetHeld = false → s.psu.context = some c → c.abortTag = none →
    c.phase = .selecting →
    (c.frontier = [] → c.bestArrival = none → exec .selectionStep s = .next { s with
      events := s.events + 1, psu.context := some c.swept }) ∧
    (∀ (b : Label) (r : PassResult), c.bestArrival = some b → (∀ l ∈ c.frontier, b.better l = true) →
      r = c.passResult b →
      r = { window := c.window, path := r.path, cost := b.cost, noise := b.noise, dispersion := b.dispersion
            hops := b.hops, pruned := c.passPruned } ∧
      (∀ (k : LinkKey) (path : List (LinkKey × Nat)) (first : LinkKey × Nat), b.arrival = some k →
        path.length ≤ c.tree.length + 1 → path.getLast? = some (k, b.node) → path.head? = some first →
        path.IsChain (fun x y => x.2 = y.1.node ∧
          ∃ l, c.tree.find? (fun z => z.node == y.1.node) = some l ∧ l.arrival = some x.1) →
        (∃ l, c.tree.find? (fun z => z.node == first.1.node) = some l ∧ l.arrival = none) → r.path = path) ∧
      (c.request.fit ≠ .best → exec .selectionStep s = .next { s with
        events := s.events + 1, psu.context := some { c with bestResult := some r, phase := .completing } }) ∧
      (c.request.fit = .best → exec .selectionStep s = .next { s with
        events := s.events + 1
        psu.context := some (Context.swept { c with bestResult := some (match c.bestResult with
          | none => r
          | some o => if r.cost < o.cost ∨ (r.cost = o.cost ∧ r.noise < o.noise) then r else o) }) })) ∧
    (∀ n ∈ c.frontier, (∀ l ∈ c.frontier, l ≠ n → n.better l = true) →
      (∀ b, c.bestArrival = some b → b.better n = false) → ∀ front : List Label,
      front = c.frontier.filter (fun l => l.node != n.node) →
      (64 ≤ c.tree.length → exec .selectionStep s = .next { s with
        events := s.events + 1
        psu.context := some { c with frontier := front, passPruned := true, anyPruned := true } }) ∧
      (c.tree.length < 64 → (∀ x ∈ s.tv.nodes, x.id ≠ n.node) → exec .selectionStep s = .next { s with
        events := s.events + 1, psu.context := some { c with frontier := front, tree := c.tree ++ [n] } }) ∧
      (∀ x ∈ s.tv.nodes, x.id = n.node → s.ViewForm → c.tree.length < 64 → exec .selectionStep s = .next { s with
        events := s.events + 1
        psu.context := some ((s.tv.links.filter (fun l => l.key.node == n.node)).foldl
          (fun c l => s.extendLink n x c l) { c with frontier := front, tree := c.tree ++ [n] }) }))) ∧
  (∀ (n : Label) (fromNode farNode : NodeRecord) (c : Context) (l : LinkRecord) (s : State), s.ViewForm →
    fromNode.profile < 16 → farNode.profile < 16 → farNode ∈ s.tv.nodes → farNode.id = l.toNode → ∀ skips : Prop,
    skips = (l.verified = false ∨ l.key ∈ c.request.excludedKeys ∨ l.toNode ∈ c.request.excludedNodes ∨
      (∃ x ∈ c.tree, x.node = l.toNode) ∨ l.toNode = c.request.source ∨
      (farNode.transit = false ∧ l.toNode ≠ c.request.destination) ∨
      s.usable l c.window c.request.width = false ∨ c.request.maxHops < n.hops + 1) →
    (skips → s.extendLink n fromNode c l = c) ∧
    (¬skips → ∀ (p q : Profile) (x : Label), some p = c.snapshot[fromNode.profile]? →
      some q = c.snapshot[farNode.profile]? →
      x = { node := l.toNode, cost := min 16777215 (n.cost + l.cost)
            noise := min 1048575 (n.noise + linkNoise l.noise p + effectivePenalty
              (if l.toNode = c.request.destination then q.drop else q.pass) q.penaltyTrim)
            dispersion := max (-8388607) (min 8388607 (n.dispersion + l.dispersion))
            hops := n.hops + 1, arrival := some l.key } →
      (c.request.budget < x.noise → s.extendLink n fromNode c l = c) ∧
      (x.noise ≤ c.request.budget → l.toNode = c.request.destination →
        s.extendLink n fromNode c l =
          if c.request.dmin ≤ x.dispersion ∧ x.dispersion ≤ c.request.dmax ∧
            (∀ b, c.bestArrival = some b → x.better b = true) then { c with bestArrival := some x } else c) ∧
      (x.noise ≤ c.request.budget → l.toNode ≠ c.request.destination → Table.Sorted Label.node c.frontier →
        (∀ o ∈ c.frontier, o.node = l.toNode → s.extendLink n fromNode c l =
          if x.better o = true then { c with frontier := c.frontier.map (fun y => if y.node = l.toNode then x else y) }
          else c) ∧
        ((∀ o ∈ c.frontier, o.node ≠ l.toNode) →
          (c.frontier.length < 32 →
            s.extendLink n fromNode c l = { c with frontier := insertSorted Label.node x c.frontier }) ∧
          (∀ w ∈ c.frontier, (∀ y ∈ c.frontier, y ≠ w → y.better w = true) → 32 ≤ c.frontier.length →
            s.extendLink n fromNode c l =
              if w.better x = true then { c with passPruned := true, anyPruned := true }
              else { c with
                frontier := insertSorted Label.node x (c.frontier.filter (fun y => y.node != w.node))
                passPruned := true, anyPruned := true })))))

/-- The completion of a search (R140 to R144, R92): NO_PATH without a result; STALE where a link of the path no longer
stands; else FOUND, with an own hold where one is asked for and can be made. -/
def Obligations.SearchesComplete : Prop :=
  ∀ (c : Context) (u : State) (s : State), s.resetHeld = false → s.psu.context = some c → c.abortTag = none →
    c.phase = .completing → s.ViewForm → u = { s with events := s.events + 1 } →
    (c.bestResult = none → exec .searchCompletion s = .next (u.searchOver
      [⟨.path, c.request.tag, .noPath, .none, c.request.clamped, .noPath ⟨c.anyPruned,
        s.tv.counter != c.startCounter, s.tv.viewIncomplete, s.lac.isolated, s.hu.overflow, false⟩ c.passes⟩])) ∧
    (∀ (r : PassResult) (stands : Prop) (done : Status → Cause → Bool → BitVec 8 → List Completion),
      c.bestResult = some r →
      stands = (∀ x ∈ r.path, ∃ l ∈ s.tv.links, l.key = x.1 ∧ l.toNode = x.2 ∧ l.verified = true ∧
        s.usable l r.window c.request.width = true) →
      done = (fun status cause created n => [⟨.path, c.request.tag, status, cause, c.request.clamped,
        .result ⟨r.pruned, s.tv.counter != c.startCounter, s.tv.viewIncomplete, s.lac.isolated, s.hu.overflow, created⟩
          c.passes
          { holdNumber := n, window := r.window, width := c.request.width, cost := r.cost, noise := r.noise
            dispersion := r.dispersion, hops := r.hops, margin := margin c.request.budget r.noise
            headroom := min (r.dispersion - c.request.dmin) (c.request.dmax - r.dispersion), path := r.path }⟩]) →
      (¬stands → exec .searchCompletion s = .next (u.searchOver (done .stale .none false 0))) ∧
      (stands → c.request.hold = false →
        exec .searchCompletion s = .next (u.searchOver (done .found .none false 0))) ∧
      (stands → c.request.hold = true → s.sc.station = .muted →
        exec .searchCompletion s = .next (u.searchOver (done .foundUnheld .muted false 0))) ∧
      (stands → c.request.hold = true → s.sc.station ≠ .muted → (∀ i : Fin 8, s.slot i ≠ .free) →
        exec .searchCompletion s = .next (u.searchOver (done .foundUnheld .slotsFull false 0))) ∧
      (∀ (i : Fin 8) (k : Nat) (n : BitVec 8), stands → c.request.hold = true → s.sc.station ≠ .muted → s.HoldsOk →
        s.slot i = .free → (∀ j : Fin 8, j < i → s.slot j ≠ .free) →
        n = s.hu.lastNumber + 1#8 + BitVec.ofNat 8 k → k ≤ 7 → (∀ j : Fin 8, (s.slot j).number ≠ some n) →
        (∀ m, m < k → ∃ j : Fin 8, (s.slot j).number = some (s.hu.lastNumber + 1#8 + BitVec.ofNat 8 m)) →
        exec .searchCompletion s = .next (State.makeDue (holdPlace i) .announce 1 (State.searchOver
          (done .found .none true n) { u with
            hu.holds := insertSorted Hold.code
              { origin := s.ownId, number := n, own := true, priority := c.request.priority, established := false
                committed := false, start := r.window, width := c.request.width, links := r.path.map Prod.fst
                lifetime := none } s.hu.holds
            hu.slots := s.hu.slots.set i (.live (.pending none) n c.request.tag)
            hu.lastNumber := n
            tv.counter := s.tv.counter + 1#32 }))))

/-- Every step keeps the search within its sizes and its request's limits (R117, R125). -/
def Obligations.EveryStepKeepsSearch : Prop :=
  ∀ s t : State, s.SearchOk → step s = .next t → t.SearchOk

/-! ### Frames and bodies -/

/-- The assembler (R16, R184, R185). Outside a frame data bits are ignored; a start delimiter begins a frame, wherever it
is met; inside a frame data bits are collected up to 519 bytes, and every other group that begins with a code violation ends
it, which outside a frame does nothing. Only an end delimiter lets a frame be judged good. Every frame that the LAC builds
is read back from its line bits (R2, section 11.1), so the line bits of a good frame act as the row of its kind does: that
FRAME_DROPPED carries line bits, which may end a good frame and then act so, is log 10's choice. -/
def Obligations.FramesReadBack : Prop :=
  (∀ (kind : FrameKind) (origin : Nat) (body : List Byte), 1 ≤ origin → origin ≤ 65534 → body.length ≤ 512 →
    judgeFrame (frameBytes kind origin body) .endDelimiter =
      some (if kind = .withdraw then .advert else kind, origin, body) ∧
    (Assembler.waiting.ended (lineRun (frameBytes kind origin body))).filterMap judgeEnded =
      [(if kind = .withdraw then .advert else kind, origin, body)] ∧
    Assembler.waiting.after (lineRun (frameBytes kind origin body)) = .waiting) ∧
  (∀ (bits : List Bool) (ending : FrameEnd), ending ≠ .endDelimiter → judgeEnded (bits, ending) = none) ∧
  (∀ d : Bool, Assembler.waiting.take (.data d) = (.waiting, none)) ∧
  (∀ (d : Bool) (bits : List Bool),
    (bits.length < 4152 → Assembler.take ⟨some bits, []⟩ (.data d) = (⟨some (bits ++ [d]), []⟩, none)) ∧
    (4152 ≤ bits.length → Assembler.take ⟨some bits, []⟩ (.data d) = (.waiting, some (bits, .overrun)))) ∧
  (∀ (frame : Option (List Bool)) (group : List LineBit) (first : LineBit) (rest : List LineBit) (ending : FrameEnd),
    group = first :: rest → (∀ d, first ≠ .data d) → group.length = 8 →
    ending = (if group = [.j, .j, .k, .k, .data true, .data false, .data true, .data true] then .startDelimiter
      else if group = [.k, .k, .j, .j, .data true, .data true, .data false, .data true] then .endDelimiter
      else if group = [.j, .j, .j, .j, .k, .k, .k, .k] then .abortDelimiter else .violation) →
    Assembler.after ⟨frame, []⟩ group = (if ending = .startDelimiter then ⟨some [], []⟩ else .waiting) ∧
    Assembler.ended ⟨frame, []⟩ group = (frame.map (fun bits => (bits, ending))).toList) ∧
  (∀ (k : FrameKind) (origin : BitVec 16) (body : List Byte) (received ending : List LineBit) (s : State),
    s.lac.assembler = .waiting → 1 ≤ origin.toNat → origin.toNat ≤ 65534 → body.length ≤ 512 →
    received ++ ending = lineRun (frameBytes k origin.toNat body) →
    exec (.frameDropped received ending) s = exec (frameRow k origin body) s)

/-- The receivers read back every hold body that the HU assembles (R104, R187) and every ADVERT body that the ADS
assembles (R25, R186). -/
def Obligations.BodiesReadBack : Prop :=
  (∀ b : HoldBody, b.priority ≤ 3 → 1 ≤ b.width → b.width ≤ 8 → b.start + b.width ≤ 64 → b.links ≠ [] →
    b.links.length ≤ 16 → b.links.Nodup → (∀ k ∈ b.links, 1 ≤ k.node ∧ k.node ≤ 65534 ∧ k.port ≤ 15) →
    readHoldBody b.bytes = some b) ∧
  (∀ a : Advert, a.profile ≤ 15 → a.entries.length ≤ 16 →
    (∀ e ∈ a.entries, e.fromPort ≤ 255 ∧ e.toNode ≤ 65535 ∧ e.toPort ≤ 255 ∧ e.cost ≤ 65535 ∧ e.noise ≤ 65535 ∧
      -32768 ≤ e.dispersion ∧ e.dispersion ≤ 32767) →
    readAdvert a.bytes = some a)
end

