-- ==== Sys2Proof/Laws/State.lean ====
section
/-! SUPPORT. One lemma for each field and each named update of the state: what the update writes there, or that it leaves
the field alone. True by unfolding, so no later proof unfolds an update. -/

namespace Sys2Proof.Machine

variable (s : State)

/-! ### count -/

@[simp] theorem State.count_resetHeld (n : Nat) : (s.count n).resetHeld = s.resetHeld := rfl
@[simp] theorem State.count_now (n : Nat) : (s.count n).now = s.now := rfl
@[simp] theorem State.count_events (n : Nat) : (s.count n).events = s.events := rfl
@[simp] theorem State.count_lac (n : Nat) : (s.count n).lac = s.lac := rfl
@[simp] theorem State.count_tv_nodes (n : Nat) : (s.count n).tv.nodes = s.tv.nodes := rfl
@[simp] theorem State.count_tv_links (n : Nat) : (s.count n).tv.links = s.tv.links := rfl
@[simp] theorem State.count_tv_viewIncomplete (n : Nat) : (s.count n).tv.viewIncomplete = s.tv.viewIncomplete := rfl
@[simp] theorem State.count_tv_counter (n : Nat) : (s.count n).tv.counter = s.tv.counter + BitVec.ofNat 32 n := rfl
@[simp] theorem State.count_pt (n : Nat) : (s.count n).pt = s.pt := rfl
@[simp] theorem State.count_ads (n : Nat) : (s.count n).ads = s.ads := rfl
@[simp] theorem State.count_pf (n : Nat) : (s.count n).pf = s.pf := rfl
@[simp] theorem State.count_hu (n : Nat) : (s.count n).hu = s.hu := rfl
@[simp] theorem State.count_psu (n : Nat) : (s.count n).psu = s.psu := rfl
@[simp] theorem State.count_clp (n : Nat) : (s.count n).clp = s.clp := rfl
@[simp] theorem State.count_sc (n : Nat) : (s.count n).sc = s.sc := rfl
@[simp] theorem State.count_pending (n : Nat) : (s.count n).pending = s.pending := rfl

/-! ### post -/

@[simp] theorem State.post_resetHeld (c : Completion) : (s.post c).resetHeld = s.resetHeld := rfl
@[simp] theorem State.post_now (c : Completion) : (s.post c).now = s.now := rfl
@[simp] theorem State.post_events (c : Completion) : (s.post c).events = s.events := rfl
@[simp] theorem State.post_lac (c : Completion) : (s.post c).lac = s.lac := rfl
@[simp] theorem State.post_tv (c : Completion) : (s.post c).tv = s.tv := rfl
@[simp] theorem State.post_pt (c : Completion) : (s.post c).pt = s.pt := rfl
@[simp] theorem State.post_ads (c : Completion) : (s.post c).ads = s.ads := rfl
@[simp] theorem State.post_pf (c : Completion) : (s.post c).pf = s.pf := rfl
@[simp] theorem State.post_hu (c : Completion) : (s.post c).hu = s.hu := rfl
@[simp] theorem State.post_psu (c : Completion) : (s.post c).psu = s.psu := rfl
@[simp] theorem State.post_clp_completions (c : Completion) :
    (s.post c).clp.completions = s.clp.completions ++ [c] := rfl
@[simp] theorem State.post_clp_reservations (c : Completion) :
    (s.post c).clp.reservations = s.clp.reservations - 1 := rfl
@[simp] theorem State.post_clp_marks (c : Completion) : (s.post c).clp.marks = s.clp.marks := rfl
@[simp] theorem State.post_clp_select (c : Completion) : (s.post c).clp.select = s.clp.select := rfl
@[simp] theorem State.post_clp_port (c : Completion) : (s.post c).clp.port = s.clp.port := rfl
@[simp] theorem State.post_sc (c : Completion) : (s.post c).sc = s.sc := rfl
@[simp] theorem State.post_pending (c : Completion) : (s.post c).pending = s.pending := rfl

/-! ### answer -/

@[simp] theorem State.answer_resetHeld (sent : List Byte) : (s.answer sent).resetHeld = s.resetHeld := rfl
@[simp] theorem State.answer_now (sent : List Byte) : (s.answer sent).now = s.now := rfl
@[simp] theorem State.answer_events (sent : List Byte) : (s.answer sent).events = s.events := rfl
@[simp] theorem State.answer_lac (sent : List Byte) : (s.answer sent).lac = s.lac := rfl
@[simp] theorem State.answer_tv (sent : List Byte) : (s.answer sent).tv = s.tv := rfl
@[simp] theorem State.answer_pt (sent : List Byte) : (s.answer sent).pt = s.pt := rfl
@[simp] theorem State.answer_ads (sent : List Byte) : (s.answer sent).ads = s.ads := rfl
@[simp] theorem State.answer_pf (sent : List Byte) : (s.answer sent).pf = s.pf := rfl
@[simp] theorem State.answer_hu (sent : List Byte) : (s.answer sent).hu = s.hu := rfl
@[simp] theorem State.answer_psu (sent : List Byte) : (s.answer sent).psu = s.psu := rfl
@[simp] theorem State.answer_clp_completions (sent : List Byte) :
    (s.answer sent).clp.completions = s.clp.completions := rfl
@[simp] theorem State.answer_clp_reservations (sent : List Byte) :
    (s.answer sent).clp.reservations = s.clp.reservations := rfl
@[simp] theorem State.answer_clp_marks (sent : List Byte) : (s.answer sent).clp.marks = s.clp.marks := rfl
@[simp] theorem State.answer_clp_select (sent : List Byte) : (s.answer sent).clp.select = true := rfl
@[simp] theorem State.answer_clp_port (sent : List Byte) : (s.answer sent).clp.port = .answering sent := rfl
@[simp] theorem State.answer_sc (sent : List Byte) : (s.answer sent).sc = s.sc := rfl
@[simp] theorem State.answer_pending (sent : List Byte) : (s.answer sent).pending = s.pending := rfl

/-! ### setSlot -/

@[simp] theorem State.setSlot_resetHeld (i : Fin 8) (x : Slot) : (s.setSlot i x).resetHeld = s.resetHeld := rfl
@[simp] theorem State.setSlot_now (i : Fin 8) (x : Slot) : (s.setSlot i x).now = s.now := rfl
@[simp] theorem State.setSlot_events (i : Fin 8) (x : Slot) : (s.setSlot i x).events = s.events := rfl
@[simp] theorem State.setSlot_lac (i : Fin 8) (x : Slot) : (s.setSlot i x).lac = s.lac := rfl
@[simp] theorem State.setSlot_tv (i : Fin 8) (x : Slot) : (s.setSlot i x).tv = s.tv := rfl
@[simp] theorem State.setSlot_pt (i : Fin 8) (x : Slot) : (s.setSlot i x).pt = s.pt := rfl
@[simp] theorem State.setSlot_ads (i : Fin 8) (x : Slot) : (s.setSlot i x).ads = s.ads := rfl
@[simp] theorem State.setSlot_pf (i : Fin 8) (x : Slot) : (s.setSlot i x).pf = s.pf := rfl
@[simp] theorem State.setSlot_hu_holds (i : Fin 8) (x : Slot) : (s.setSlot i x).hu.holds = s.hu.holds := rfl
@[simp] theorem State.setSlot_hu_slots (i : Fin 8) (x : Slot) : (s.setSlot i x).hu.slots = s.hu.slots.set i x := rfl
@[simp] theorem State.setSlot_hu_lastNumber (i : Fin 8) (x : Slot) :
    (s.setSlot i x).hu.lastNumber = s.hu.lastNumber := rfl
@[simp] theorem State.setSlot_hu_blocks (i : Fin 8) (x : Slot) : (s.setSlot i x).hu.blocks = s.hu.blocks := rfl
@[simp] theorem State.setSlot_hu_overflow (i : Fin 8) (x : Slot) : (s.setSlot i x).hu.overflow = s.hu.overflow := rfl
@[simp] theorem State.setSlot_psu (i : Fin 8) (x : Slot) : (s.setSlot i x).psu = s.psu := rfl
@[simp] theorem State.setSlot_clp (i : Fin 8) (x : Slot) : (s.setSlot i x).clp = s.clp := rfl
@[simp] theorem State.setSlot_sc (i : Fin 8) (x : Slot) : (s.setSlot i x).sc = s.sc := rfl
@[simp] theorem State.setSlot_pending (i : Fin 8) (x : Slot) : (s.setSlot i x).pending = s.pending := rfl

/-! ### putHold -/

@[simp] theorem State.putHold_resetHeld (h : Hold) : (s.putHold h).resetHeld = s.resetHeld := rfl
@[simp] theorem State.putHold_now (h : Hold) : (s.putHold h).now = s.now := rfl
@[simp] theorem State.putHold_events (h : Hold) : (s.putHold h).events = s.events := rfl
@[simp] theorem State.putHold_lac (h : Hold) : (s.putHold h).lac = s.lac := rfl
@[simp] theorem State.putHold_tv (h : Hold) : (s.putHold h).tv = s.tv := rfl
@[simp] theorem State.putHold_pt (h : Hold) : (s.putHold h).pt = s.pt := rfl
@[simp] theorem State.putHold_ads (h : Hold) : (s.putHold h).ads = s.ads := rfl
@[simp] theorem State.putHold_pf (h : Hold) : (s.putHold h).pf = s.pf := rfl
@[simp] theorem State.putHold_hu_holds (h : Hold) : (s.putHold h).hu.holds = Table.put Hold.code h s.hu.holds := rfl
@[simp] theorem State.putHold_hu_slots (h : Hold) : (s.putHold h).hu.slots = s.hu.slots := rfl
@[simp] theorem State.putHold_hu_lastNumber (h : Hold) : (s.putHold h).hu.lastNumber = s.hu.lastNumber := rfl
@[simp] theorem State.putHold_hu_blocks (h : Hold) : (s.putHold h).hu.blocks = s.hu.blocks := rfl
@[simp] theorem State.putHold_hu_overflow (h : Hold) : (s.putHold h).hu.overflow = s.hu.overflow := rfl
@[simp] theorem State.putHold_psu (h : Hold) : (s.putHold h).psu = s.psu := rfl
@[simp] theorem State.putHold_clp (h : Hold) : (s.putHold h).clp = s.clp := rfl
@[simp] theorem State.putHold_sc (h : Hold) : (s.putHold h).sc = s.sc := rfl
@[simp] theorem State.putHold_pending (h : Hold) : (s.putHold h).pending = s.pending := rfl

/-! ### setEntry -/

@[simp] theorem State.setEntry_resetHeld (p : Fin 10) (e : Option Entry) :
    (s.setEntry p e).resetHeld = s.resetHeld := rfl
@[simp] theorem State.setEntry_now (p : Fin 10) (e : Option Entry) : (s.setEntry p e).now = s.now := rfl
@[simp] theorem State.setEntry_events (p : Fin 10) (e : Option Entry) : (s.setEntry p e).events = s.events := rfl
@[simp] theorem State.setEntry_lac_due (p : Fin 10) (e : Option Entry) :
    (s.setEntry p e).lac.due = s.lac.due.set p e := rfl
@[simp] theorem State.setEntry_lac_attempt (p : Fin 10) (e : Option Entry) :
    (s.setEntry p e).lac.attempt = s.lac.attempt := rfl
@[simp] theorem State.setEntry_lac_sending (p : Fin 10) (e : Option Entry) :
    (s.setEntry p e).lac.sending = s.lac.sending := rfl
@[simp] theorem State.setEntry_lac_budget (p : Fin 10) (e : Option Entry) :
    (s.setEntry p e).lac.budget = s.lac.budget := rfl
@[simp] theorem State.setEntry_lac_idle (p : Fin 10) (e : Option Entry) : (s.setEntry p e).lac.idle = s.lac.idle := rfl
@[simp] theorem State.setEntry_lac_activity (p : Fin 10) (e : Option Entry) :
    (s.setEntry p e).lac.activity = s.lac.activity := rfl
@[simp] theorem State.setEntry_lac_echo (p : Fin 10) (e : Option Entry) :
    (s.setEntry p e).lac.echo = s.lac.echo := rfl
@[simp] theorem State.setEntry_lac_lfsr (p : Fin 10) (e : Option Entry) : (s.setEntry p e).lac.lfsr = s.lac.lfsr := rfl
@[simp] theorem State.setEntry_lac_watch (p : Fin 10) (e : Option Entry) :
    (s.setEntry p e).lac.watch = s.lac.watch := rfl
@[simp] theorem State.setEntry_lac_isolated (p : Fin 10) (e : Option Entry) :
    (s.setEntry p e).lac.isolated = s.lac.isolated := rfl
@[simp] theorem State.setEntry_lac_assembler (p : Fin 10) (e : Option Entry) :
    (s.setEntry p e).lac.assembler = s.lac.assembler := rfl
@[simp] theorem State.setEntry_tv (p : Fin 10) (e : Option Entry) : (s.setEntry p e).tv = s.tv := rfl
@[simp] theorem State.setEntry_pt (p : Fin 10) (e : Option Entry) : (s.setEntry p e).pt = s.pt := rfl
@[simp] theorem State.setEntry_ads (p : Fin 10) (e : Option Entry) : (s.setEntry p e).ads = s.ads := rfl
@[simp] theorem State.setEntry_pf (p : Fin 10) (e : Option Entry) : (s.setEntry p e).pf = s.pf := rfl
@[simp] theorem State.setEntry_hu (p : Fin 10) (e : Option Entry) : (s.setEntry p e).hu = s.hu := rfl
@[simp] theorem State.setEntry_psu (p : Fin 10) (e : Option Entry) : (s.setEntry p e).psu = s.psu := rfl
@[simp] theorem State.setEntry_clp (p : Fin 10) (e : Option Entry) : (s.setEntry p e).clp = s.clp := rfl
@[simp] theorem State.setEntry_sc (p : Fin 10) (e : Option Entry) : (s.setEntry p e).sc = s.sc := rfl
@[simp] theorem State.setEntry_pending (p : Fin 10) (e : Option Entry) : (s.setEntry p e).pending = s.pending := rfl

/-! ### clearDue -/

@[simp] theorem State.clearDue_resetHeld : (s.clearDue).resetHeld = s.resetHeld := rfl
@[simp] theorem State.clearDue_now : (s.clearDue).now = s.now := rfl
@[simp] theorem State.clearDue_events : (s.clearDue).events = s.events := rfl
@[simp] theorem State.clearDue_lac_due : (s.clearDue).lac.due = Vector.replicate 10 none := rfl
@[simp] theorem State.clearDue_lac_attempt : (s.clearDue).lac.attempt = s.lac.attempt := rfl
@[simp] theorem State.clearDue_lac_sending : (s.clearDue).lac.sending = s.lac.sending := rfl
@[simp] theorem State.clearDue_lac_budget : (s.clearDue).lac.budget = s.lac.budget := rfl
@[simp] theorem State.clearDue_lac_idle : (s.clearDue).lac.idle = s.lac.idle := rfl
@[simp] theorem State.clearDue_lac_activity : (s.clearDue).lac.activity = s.lac.activity := rfl
@[simp] theorem State.clearDue_lac_echo : (s.clearDue).lac.echo = s.lac.echo := rfl
@[simp] theorem State.clearDue_lac_lfsr : (s.clearDue).lac.lfsr = s.lac.lfsr := rfl
@[simp] theorem State.clearDue_lac_watch : (s.clearDue).lac.watch = s.lac.watch := rfl
@[simp] theorem State.clearDue_lac_isolated : (s.clearDue).lac.isolated = s.lac.isolated := rfl
@[simp] theorem State.clearDue_lac_assembler : (s.clearDue).lac.assembler = s.lac.assembler := rfl
@[simp] theorem State.clearDue_tv : (s.clearDue).tv = s.tv := rfl
@[simp] theorem State.clearDue_pt : (s.clearDue).pt = s.pt := rfl
@[simp] theorem State.clearDue_ads : (s.clearDue).ads = s.ads := rfl
@[simp] theorem State.clearDue_pf : (s.clearDue).pf = s.pf := rfl
@[simp] theorem State.clearDue_hu : (s.clearDue).hu = s.hu := rfl
@[simp] theorem State.clearDue_psu : (s.clearDue).psu = s.psu := rfl
@[simp] theorem State.clearDue_clp : (s.clearDue).clp = s.clp := rfl
@[simp] theorem State.clearDue_sc : (s.clearDue).sc = s.sc := rfl
@[simp] theorem State.clearDue_pending : (s.clearDue).pending = s.pending := rfl

/-! ### closeAttempt -/

@[simp] theorem State.closeAttempt_resetHeld (bits : Nat) : (s.closeAttempt bits).resetHeld = s.resetHeld := rfl
@[simp] theorem State.closeAttempt_now (bits : Nat) : (s.closeAttempt bits).now = s.now := rfl
@[simp] theorem State.closeAttempt_events (bits : Nat) : (s.closeAttempt bits).events = s.events := rfl
@[simp] theorem State.closeAttempt_lac_due (bits : Nat) : (s.closeAttempt bits).lac.due = s.lac.due := rfl
@[simp] theorem State.closeAttempt_lac_attempt (bits : Nat) : (s.closeAttempt bits).lac.attempt = none := rfl
@[simp] theorem State.closeAttempt_lac_sending (bits : Nat) : (s.closeAttempt bits).lac.sending = s.lac.sending := rfl
@[simp] theorem State.closeAttempt_lac_budget (bits : Nat) :
    (s.closeAttempt bits).lac.budget = s.lac.budget - bytesSent bits := rfl
@[simp] theorem State.closeAttempt_lac_idle (bits : Nat) : (s.closeAttempt bits).lac.idle = s.lac.idle := rfl
@[simp] theorem State.closeAttempt_lac_activity (bits : Nat) :
    (s.closeAttempt bits).lac.activity = s.lac.activity := rfl
@[simp] theorem State.closeAttempt_lac_echo (bits : Nat) :
    (s.closeAttempt bits).lac.echo = s.lac.echo := rfl
@[simp] theorem State.closeAttempt_lac_lfsr (bits : Nat) : (s.closeAttempt bits).lac.lfsr = s.lac.lfsr := rfl
@[simp] theorem State.closeAttempt_lac_watch (bits : Nat) : (s.closeAttempt bits).lac.watch = s.lac.watch := rfl
@[simp] theorem State.closeAttempt_lac_isolated (bits : Nat) :
    (s.closeAttempt bits).lac.isolated = s.lac.isolated := rfl
@[simp] theorem State.closeAttempt_lac_assembler (bits : Nat) :
    (s.closeAttempt bits).lac.assembler = s.lac.assembler := rfl
@[simp] theorem State.closeAttempt_tv (bits : Nat) : (s.closeAttempt bits).tv = s.tv := rfl
@[simp] theorem State.closeAttempt_pt (bits : Nat) : (s.closeAttempt bits).pt = s.pt := rfl
@[simp] theorem State.closeAttempt_ads (bits : Nat) : (s.closeAttempt bits).ads = s.ads := rfl
@[simp] theorem State.closeAttempt_pf (bits : Nat) : (s.closeAttempt bits).pf = s.pf := rfl
@[simp] theorem State.closeAttempt_hu (bits : Nat) : (s.closeAttempt bits).hu = s.hu := rfl
@[simp] theorem State.closeAttempt_psu (bits : Nat) : (s.closeAttempt bits).psu = s.psu := rfl
@[simp] theorem State.closeAttempt_clp (bits : Nat) : (s.closeAttempt bits).clp = s.clp := rfl
@[simp] theorem State.closeAttempt_sc (bits : Nat) : (s.closeAttempt bits).sc = s.sc := rfl
@[simp] theorem State.closeAttempt_pending (bits : Nat) : (s.closeAttempt bits).pending = s.pending := rfl

/-! ### breakOff -/

@[simp] theorem State.breakOff_resetHeld (a : Attempt) (n : Nat) :
    (s.breakOff a n).resetHeld = s.resetHeld := rfl
@[simp] theorem State.breakOff_now (a : Attempt) (n : Nat) : (s.breakOff a n).now = s.now := rfl
@[simp] theorem State.breakOff_events (a : Attempt) (n : Nat) : (s.breakOff a n).events = s.events := rfl
@[simp] theorem State.breakOff_lac_due (a : Attempt) (n : Nat) : (s.breakOff a n).lac.due = s.lac.due := rfl
@[simp] theorem State.breakOff_lac_attempt (a : Attempt) (n : Nat) : (s.breakOff a n).lac.attempt = s.lac.attempt := rfl
@[simp] theorem State.breakOff_lac_sending (a : Attempt) (n : Nat) :
    (s.breakOff a n).lac.sending = some ⟨a.startedAt, a.frame, some n⟩ := rfl
@[simp] theorem State.breakOff_lac_budget (a : Attempt) (n : Nat) :
    (s.breakOff a n).lac.budget = s.lac.budget := rfl
@[simp] theorem State.breakOff_lac_idle (a : Attempt) (n : Nat) : (s.breakOff a n).lac.idle = s.lac.idle := rfl
@[simp] theorem State.breakOff_lac_activity (a : Attempt) (n : Nat) :
    (s.breakOff a n).lac.activity = s.lac.activity := rfl
@[simp] theorem State.breakOff_lac_echo (a : Attempt) (n : Nat) :
    (s.breakOff a n).lac.echo = s.lac.echo := rfl
@[simp] theorem State.breakOff_lac_lfsr (a : Attempt) (n : Nat) : (s.breakOff a n).lac.lfsr = s.lac.lfsr := rfl
@[simp] theorem State.breakOff_lac_watch (a : Attempt) (n : Nat) :
    (s.breakOff a n).lac.watch = s.lac.watch := rfl
@[simp] theorem State.breakOff_lac_isolated (a : Attempt) (n : Nat) :
    (s.breakOff a n).lac.isolated = s.lac.isolated := rfl
@[simp] theorem State.breakOff_lac_assembler (a : Attempt) (n : Nat) :
    (s.breakOff a n).lac.assembler = s.lac.assembler := rfl
@[simp] theorem State.breakOff_tv (a : Attempt) (n : Nat) : (s.breakOff a n).tv = s.tv := rfl
@[simp] theorem State.breakOff_pt (a : Attempt) (n : Nat) : (s.breakOff a n).pt = s.pt := rfl
@[simp] theorem State.breakOff_ads (a : Attempt) (n : Nat) : (s.breakOff a n).ads = s.ads := rfl
@[simp] theorem State.breakOff_pf (a : Attempt) (n : Nat) : (s.breakOff a n).pf = s.pf := rfl
@[simp] theorem State.breakOff_hu (a : Attempt) (n : Nat) : (s.breakOff a n).hu = s.hu := rfl
@[simp] theorem State.breakOff_psu (a : Attempt) (n : Nat) : (s.breakOff a n).psu = s.psu := rfl
@[simp] theorem State.breakOff_clp (a : Attempt) (n : Nat) : (s.breakOff a n).clp = s.clp := rfl
@[simp] theorem State.breakOff_sc (a : Attempt) (n : Nat) : (s.breakOff a n).sc = s.sc := rfl
@[simp] theorem State.breakOff_pending (a : Attempt) (n : Nat) : (s.breakOff a n).pending = s.pending := rfl

/-! ### abortAttempt -/

@[simp] theorem State.abortAttempt_resetHeld (a : Attempt) (n : Nat) :
    (s.abortAttempt a n).resetHeld = s.resetHeld := rfl
@[simp] theorem State.abortAttempt_now (a : Attempt) (n : Nat) : (s.abortAttempt a n).now = s.now := rfl
@[simp] theorem State.abortAttempt_events (a : Attempt) (n : Nat) : (s.abortAttempt a n).events = s.events := rfl
@[simp] theorem State.abortAttempt_lac_due (a : Attempt) (n : Nat) : (s.abortAttempt a n).lac.due = s.lac.due := rfl
@[simp] theorem State.abortAttempt_lac_attempt (a : Attempt) (n : Nat) : (s.abortAttempt a n).lac.attempt = none := rfl
@[simp] theorem State.abortAttempt_lac_sending (a : Attempt) (n : Nat) :
    (s.abortAttempt a n).lac.sending = some ⟨a.startedAt, a.frame, some n⟩ := rfl
@[simp] theorem State.abortAttempt_lac_budget (a : Attempt) (n : Nat) :
    (s.abortAttempt a n).lac.budget = s.lac.budget - bytesSent (n + abortBits) := rfl
@[simp] theorem State.abortAttempt_lac_idle (a : Attempt) (n : Nat) : (s.abortAttempt a n).lac.idle = s.lac.idle := rfl
@[simp] theorem State.abortAttempt_lac_activity (a : Attempt) (n : Nat) :
    (s.abortAttempt a n).lac.activity = s.lac.activity := rfl
@[simp] theorem State.abortAttempt_lac_echo (a : Attempt) (n : Nat) :
    (s.abortAttempt a n).lac.echo = s.lac.echo := rfl
@[simp] theorem State.abortAttempt_lac_lfsr (a : Attempt) (n : Nat) : (s.abortAttempt a n).lac.lfsr = s.lac.lfsr := rfl
@[simp] theorem State.abortAttempt_lac_watch (a : Attempt) (n : Nat) :
    (s.abortAttempt a n).lac.watch = s.lac.watch := rfl
@[simp] theorem State.abortAttempt_lac_isolated (a : Attempt) (n : Nat) :
    (s.abortAttempt a n).lac.isolated = s.lac.isolated := rfl
@[simp] theorem State.abortAttempt_lac_assembler (a : Attempt) (n : Nat) :
    (s.abortAttempt a n).lac.assembler = s.lac.assembler := rfl
@[simp] theorem State.abortAttempt_tv (a : Attempt) (n : Nat) : (s.abortAttempt a n).tv = s.tv := rfl
@[simp] theorem State.abortAttempt_pt (a : Attempt) (n : Nat) : (s.abortAttempt a n).pt = s.pt := rfl
@[simp] theorem State.abortAttempt_ads (a : Attempt) (n : Nat) : (s.abortAttempt a n).ads = s.ads := rfl
@[simp] theorem State.abortAttempt_pf (a : Attempt) (n : Nat) : (s.abortAttempt a n).pf = s.pf := rfl
@[simp] theorem State.abortAttempt_hu (a : Attempt) (n : Nat) : (s.abortAttempt a n).hu = s.hu := rfl
@[simp] theorem State.abortAttempt_psu (a : Attempt) (n : Nat) : (s.abortAttempt a n).psu = s.psu := rfl
@[simp] theorem State.abortAttempt_clp (a : Attempt) (n : Nat) : (s.abortAttempt a n).clp = s.clp := rfl
@[simp] theorem State.abortAttempt_sc (a : Attempt) (n : Nat) : (s.abortAttempt a n).sc = s.sc := rfl
@[simp] theorem State.abortAttempt_pending (a : Attempt) (n : Nat) : (s.abortAttempt a n).pending = s.pending := rfl

/-! ### setPort -/

@[simp] theorem State.setPort_resetHeld (p : Nat) (r : PortRecord) : (s.setPort p r).resetHeld = s.resetHeld := rfl
@[simp] theorem State.setPort_now (p : Nat) (r : PortRecord) : (s.setPort p r).now = s.now := rfl
@[simp] theorem State.setPort_events (p : Nat) (r : PortRecord) : (s.setPort p r).events = s.events := rfl
@[simp] theorem State.setPort_lac (p : Nat) (r : PortRecord) : (s.setPort p r).lac = s.lac := rfl
@[simp] theorem State.setPort_tv (p : Nat) (r : PortRecord) : (s.setPort p r).tv = s.tv := rfl
@[simp] theorem State.setPort_pt_ports (p : Nat) (r : PortRecord) :
    (s.setPort p r).pt.ports = s.pt.ports.setIfInBounds p r := rfl
@[simp] theorem State.setPort_ads (p : Nat) (r : PortRecord) : (s.setPort p r).ads = s.ads := rfl
@[simp] theorem State.setPort_pf (p : Nat) (r : PortRecord) : (s.setPort p r).pf = s.pf := rfl
@[simp] theorem State.setPort_hu (p : Nat) (r : PortRecord) : (s.setPort p r).hu = s.hu := rfl
@[simp] theorem State.setPort_psu (p : Nat) (r : PortRecord) : (s.setPort p r).psu = s.psu := rfl
@[simp] theorem State.setPort_clp (p : Nat) (r : PortRecord) : (s.setPort p r).clp = s.clp := rfl
@[simp] theorem State.setPort_sc (p : Nat) (r : PortRecord) : (s.setPort p r).sc = s.sc := rfl
@[simp] theorem State.setPort_pending (p : Nat) (r : PortRecord) : (s.setPort p r).pending = s.pending := rfl

/-! ### setProfile -/

@[simp] theorem State.setProfile_resetHeld (i : Nat) (p : Profile) : (s.setProfile i p).resetHeld = s.resetHeld := rfl
@[simp] theorem State.setProfile_now (i : Nat) (p : Profile) : (s.setProfile i p).now = s.now := rfl
@[simp] theorem State.setProfile_events (i : Nat) (p : Profile) : (s.setProfile i p).events = s.events := rfl
@[simp] theorem State.setProfile_lac (i : Nat) (p : Profile) : (s.setProfile i p).lac = s.lac := rfl
@[simp] theorem State.setProfile_tv (i : Nat) (p : Profile) : (s.setProfile i p).tv = s.tv := rfl
@[simp] theorem State.setProfile_pt (i : Nat) (p : Profile) : (s.setProfile i p).pt = s.pt := rfl
@[simp] theorem State.setProfile_ads (i : Nat) (p : Profile) : (s.setProfile i p).ads = s.ads := rfl
@[simp] theorem State.setProfile_pf_profiles (i : Nat) (p : Profile) :
    (s.setProfile i p).pf.profiles = s.pf.profiles.setIfInBounds i p := rfl
@[simp] theorem State.setProfile_hu (i : Nat) (p : Profile) : (s.setProfile i p).hu = s.hu := rfl
@[simp] theorem State.setProfile_psu (i : Nat) (p : Profile) : (s.setProfile i p).psu = s.psu := rfl
@[simp] theorem State.setProfile_clp (i : Nat) (p : Profile) : (s.setProfile i p).clp = s.clp := rfl
@[simp] theorem State.setProfile_sc (i : Nat) (p : Profile) : (s.setProfile i p).sc = s.sc := rfl
@[simp] theorem State.setProfile_pending (i : Nat) (p : Profile) : (s.setProfile i p).pending = s.pending := rfl

/-! ### setContext -/

@[simp] theorem State.setContext_resetHeld (c : Context) : (s.setContext c).resetHeld = s.resetHeld := rfl
@[simp] theorem State.setContext_now (c : Context) : (s.setContext c).now = s.now := rfl
@[simp] theorem State.setContext_events (c : Context) : (s.setContext c).events = s.events := rfl
@[simp] theorem State.setContext_lac (c : Context) : (s.setContext c).lac = s.lac := rfl
@[simp] theorem State.setContext_tv (c : Context) : (s.setContext c).tv = s.tv := rfl
@[simp] theorem State.setContext_pt (c : Context) : (s.setContext c).pt = s.pt := rfl
@[simp] theorem State.setContext_ads (c : Context) : (s.setContext c).ads = s.ads := rfl
@[simp] theorem State.setContext_pf (c : Context) : (s.setContext c).pf = s.pf := rfl
@[simp] theorem State.setContext_hu (c : Context) : (s.setContext c).hu = s.hu := rfl
@[simp] theorem State.setContext_psu_queue (c : Context) : (s.setContext c).psu.queue = s.psu.queue := rfl
@[simp] theorem State.setContext_psu_context (c : Context) : (s.setContext c).psu.context = some c := rfl
@[simp] theorem State.setContext_clp (c : Context) : (s.setContext c).clp = s.clp := rfl
@[simp] theorem State.setContext_sc (c : Context) : (s.setContext c).sc = s.sc := rfl
@[simp] theorem State.setContext_pending (c : Context) : (s.setContext c).pending = s.pending := rfl

/-! ### reverify -/

@[simp] theorem State.reverify_resetHeld (node : Nat) : (s.reverify node).resetHeld = s.resetHeld := rfl
@[simp] theorem State.reverify_now (node : Nat) : (s.reverify node).now = s.now := rfl
@[simp] theorem State.reverify_events (node : Nat) : (s.reverify node).events = s.events := rfl
@[simp] theorem State.reverify_lac (node : Nat) : (s.reverify node).lac = s.lac := rfl
@[simp] theorem State.reverify_tv_nodes (node : Nat) : (s.reverify node).tv.nodes = s.tv.nodes := rfl
@[simp] theorem State.reverify_tv_viewIncomplete (node : Nat) :
    (s.reverify node).tv.viewIncomplete = s.tv.viewIncomplete := rfl
@[simp] theorem State.reverify_tv_counter (node : Nat) : (s.reverify node).tv.counter = s.tv.counter := rfl
@[simp] theorem State.reverify_pt (node : Nat) : (s.reverify node).pt = s.pt := rfl
@[simp] theorem State.reverify_ads (node : Nat) : (s.reverify node).ads = s.ads := rfl
@[simp] theorem State.reverify_pf (node : Nat) : (s.reverify node).pf = s.pf := rfl
@[simp] theorem State.reverify_hu (node : Nat) : (s.reverify node).hu = s.hu := rfl
@[simp] theorem State.reverify_psu (node : Nat) : (s.reverify node).psu = s.psu := rfl
@[simp] theorem State.reverify_clp (node : Nat) : (s.reverify node).clp = s.clp := rfl
@[simp] theorem State.reverify_sc (node : Nat) : (s.reverify node).sc = s.sc := rfl
@[simp] theorem State.reverify_pending (node : Nat) : (s.reverify node).pending = s.pending := rfl

/-! ### elapse -/

@[simp] theorem State.elapse_resetHeld (dt : Nat) : (s.elapse dt).resetHeld = s.resetHeld := rfl
@[simp] theorem State.elapse_now (dt : Nat) : (s.elapse dt).now = s.now + dt := rfl
@[simp] theorem State.elapse_events (dt : Nat) : (s.elapse dt).events = s.events := rfl
@[simp] theorem State.elapse_lac_due (dt : Nat) : (s.elapse dt).lac.due = s.lac.due := rfl
@[simp] theorem State.elapse_lac_attempt (dt : Nat) : (s.elapse dt).lac.attempt = s.lac.attempt := rfl
@[simp] theorem State.elapse_lac_sending (dt : Nat) : (s.elapse dt).lac.sending = s.lac.sending := rfl
@[simp] theorem State.elapse_lac_budget (dt : Nat) : (s.elapse dt).lac.budget = s.lac.budget := rfl
@[simp] theorem State.elapse_lac_idle (dt : Nat) :
    (s.elapse dt).lac.idle = if s.lac.activity then s.lac.idle else s.lac.idle + dt := rfl
@[simp] theorem State.elapse_lac_activity (dt : Nat) : (s.elapse dt).lac.activity = s.lac.activity := rfl
@[simp] theorem State.elapse_lac_echo (dt : Nat) : (s.elapse dt).lac.echo = s.lac.echo := rfl
@[simp] theorem State.elapse_lac_lfsr (dt : Nat) : (s.elapse dt).lac.lfsr = s.lac.lfsr := rfl
@[simp] theorem State.elapse_lac_watch (dt : Nat) : (s.elapse dt).lac.watch = s.lac.watch.after dt := rfl
@[simp] theorem State.elapse_lac_isolated (dt : Nat) : (s.elapse dt).lac.isolated = s.lac.isolated := rfl
@[simp] theorem State.elapse_lac_assembler (dt : Nat) : (s.elapse dt).lac.assembler = s.lac.assembler := rfl
@[simp] theorem State.elapse_tv (dt : Nat) : (s.elapse dt).tv = s.tv := rfl
@[simp] theorem State.elapse_pt (dt : Nat) : (s.elapse dt).pt = s.pt := rfl
@[simp] theorem State.elapse_ads (dt : Nat) : (s.elapse dt).ads = s.ads := rfl
@[simp] theorem State.elapse_pf (dt : Nat) : (s.elapse dt).pf = s.pf := rfl
@[simp] theorem State.elapse_hu_slots (dt : Nat) : (s.elapse dt).hu.slots = s.hu.slots.map (Slot.after dt) := rfl
@[simp] theorem State.elapse_hu_lastNumber (dt : Nat) : (s.elapse dt).hu.lastNumber = s.hu.lastNumber := rfl
@[simp] theorem State.elapse_hu_blocks (dt : Nat) : (s.elapse dt).hu.blocks = s.hu.blocks := rfl
@[simp] theorem State.elapse_hu_overflow (dt : Nat) : (s.elapse dt).hu.overflow = s.hu.overflow := rfl
@[simp] theorem State.elapse_psu (dt : Nat) : (s.elapse dt).psu = s.psu := rfl
@[simp] theorem State.elapse_clp (dt : Nat) : (s.elapse dt).clp = s.clp := rfl
@[simp] theorem State.elapse_sc_station (dt : Nat) : (s.elapse dt).sc.station = s.sc.station := rfl
@[simp] theorem State.elapse_sc_identity (dt : Nat) : (s.elapse dt).sc.identity = s.sc.identity := rfl
@[simp] theorem State.elapse_sc_timing (dt : Nat) : (s.elapse dt).sc.timing = s.sc.timing := rfl
@[simp] theorem State.elapse_sc_muted (dt : Nat) : (s.elapse dt).sc.muted = s.sc.muted := rfl
@[simp] theorem State.elapse_sc_riTimer (dt : Nat) : (s.elapse dt).sc.riTimer = s.sc.riTimer.map (· + dt) := rfl
@[simp] theorem State.elapse_sc_listen (dt : Nat) : (s.elapse dt).sc.listen = s.sc.listen := rfl
@[simp] theorem State.elapse_sc_joinWaiting (dt : Nat) : (s.elapse dt).sc.joinWaiting = s.sc.joinWaiting := rfl
@[simp] theorem State.elapse_sc_leaveWaiting (dt : Nat) : (s.elapse dt).sc.leaveWaiting = s.sc.leaveWaiting := rfl
@[simp] theorem State.elapse_pending (dt : Nat) : (s.elapse dt).pending = s.pending := rfl

/-! ### Accessors -/

@[simp] theorem State.slot_setSlot_self (i : Fin 8) (x : Slot) : (s.setSlot i x).slot i = x := by
  simp [State.slot, State.setSlot]

theorem State.slot_setSlot_ne (i j : Fin 8) (x : Slot) (h : j ≠ i) : (s.setSlot i x).slot j = s.slot j := by
  have : i.val ≠ j.val := fun e => h (Fin.ext e.symm)
  simp [State.slot, State.setSlot, this]

@[simp] theorem State.entry_setEntry_self (p : Fin 10) (e : Option Entry) : (s.setEntry p e).entry p = e := by
  simp [State.entry, State.setEntry]

theorem State.entry_setEntry_ne (p q : Fin 10) (e : Option Entry) (h : q ≠ p) :
    (s.setEntry p e).entry q = s.entry q := by
  have : p.val ≠ q.val := fun e => h (Fin.ext e.symm)
  simp [State.entry, State.setEntry, this]

end Sys2Proof.Machine
end

