-- ==== Sys2Proof/Laws/Tables.lean ====
section
/-! SUPPORT. What the keyed tables do: a lookup finds the one record of its key, `put` is a sorted insertion, and both
changes keep the canonical form. -/

namespace Sys2Proof.Machine.Table

variable {α : Type} {key : α → Nat}

/-- A tail of a canonical table is canonical, and the head's key is below its keys. -/
theorem sorted_cons {x : α} {l : List α} : Sorted key (x :: l) ↔ (∀ y ∈ l, key x < key y) ∧ Sorted key l := by
  simp [Sorted]

/-- In a canonical table a key names one record. -/
theorem Sorted.inj {l : List α} (h : Sorted key l) {x y : α} (hx : x ∈ l) (hy : y ∈ l) (e : key x = key y) : x = y := by
  induction l with
  | nil => cases hx
  | cons z l ih =>
    obtain ⟨hz, hl⟩ := sorted_cons.1 h
    rcases List.mem_cons.1 hx with rfl | mx <;> rcases List.mem_cons.1 hy with rfl | my
    · rfl
    · have := hz _ my
      omega
    · have := hz _ mx
      omega
    · exact ih hl mx my

/-- A lookup answers the record of the key. -/
theorem lookup_eq_some {l : List α} (h : Sorted key l) {k : Nat} {x : α} :
    lookup key k l = some x ↔ x ∈ l ∧ key x = k := by
  constructor
  · intro e
    exact ⟨List.mem_of_find?_eq_some e, by simpa using List.find?_some e⟩
  · rintro ⟨hx, rfl⟩
    cases e : lookup key (key x) l with
    | none => exact absurd (List.find?_eq_none.1 e x hx) (by simp)
    | some y =>
      have hk : key y = key x := by simpa using List.find?_some e
      rw [h.inj (List.mem_of_find?_eq_some e) hx hk]

/-- A lookup finds nothing exactly when no record has the key. -/
theorem lookup_eq_none {l : List α} {k : Nat} : lookup key k l = none ↔ ∀ x ∈ l, key x ≠ k := by
  simp [lookup]

/-- `put` is the sorted insertion. -/
theorem put_eq_insertSorted {l : List α} (h : Sorted key l) (x : α) : put key x l = insertSorted key x l := by
  induction l with
  | nil => simp [put, insertSorted]
  | cons y l ih =>
    obtain ⟨hy, hl⟩ := sorted_cons.1 h
    have lows : key x ≤ key y → l.filter (fun z => decide (key z < key x)) = [] := fun le =>
      List.filter_eq_nil_iff.2 (fun z hz => by have := hy z hz; simp; omega)
    have highs : key x ≤ key y → l.filter (fun z => decide (key x < key z)) = l := fun le =>
      List.filter_eq_self.2 (fun z hz => by have := hy z hz; simp; omega)
    unfold put
    split
    · rename_i lt
      simp [insertSorted, lows (by omega), highs (by omega), lt, Nat.not_lt.2 (Nat.le_of_lt lt)]
    · split
      · rename_i eq
        have lo := lows (by omega)
        have hi := highs (by omega)
        rw [insertSorted, List.filter_cons_of_neg (by simp; omega), List.filter_cons_of_neg (by simp; omega), lo, hi]
        rfl
      · have gt : key y < key x := by omega
        rw [ih hl]
        simp [insertSorted, gt, Nat.not_lt.2 (Nat.le_of_lt gt)]

/-- The records after `put`. -/
theorem mem_put {l : List α} (h : Sorted key l) {x y : α} : y ∈ put key x l ↔ y = x ∨ (y ∈ l ∧ key y ≠ key x) := by
  simp only [put_eq_insertSorted h, insertSorted, List.mem_append, List.mem_filter, decide_eq_true_eq,
    List.mem_singleton]
  constructor
  · rintro ((⟨m, lt⟩ | rfl) | ⟨m, lt⟩)
    · exact .inr ⟨m, by omega⟩
    · exact .inl rfl
    · exact .inr ⟨m, by omega⟩
  · rintro (rfl | ⟨m, ne⟩)
    · simp
    · rcases Nat.lt_or_gt_of_ne ne with lt | lt <;> simp [m, lt]

/-- `put` keeps the canonical form. -/
theorem sorted_put {l : List α} (h : Sorted key l) (x : α) : Sorted key (put key x l) := by
  rw [put_eq_insertSorted h]
  simp only [insertSorted, Sorted, List.pairwise_append, List.mem_append, List.mem_filter, decide_eq_true_eq,
    List.mem_singleton, List.pairwise_singleton, true_and]
  refine ⟨⟨List.Pairwise.filter _ h, ?_⟩, List.Pairwise.filter _ h, ?_⟩
  · rintro a ⟨_, lt⟩ b rfl
    exact lt
  · rintro a (⟨_, lt⟩ | rfl) b ⟨_, lt'⟩
    · omega
    · exact lt'

/-- `erase` keeps the canonical form. -/
theorem sorted_erase {l : List α} (h : Sorted key l) (k : Nat) : Sorted key (erase key k l) :=
  List.Pairwise.filter _ h

/-- The record put is the one found under its key. -/
theorem lookup_put_self {l : List α} (h : Sorted key l) (x : α) : lookup key (key x) (put key x l) = some x :=
  (lookup_eq_some (sorted_put h x)).2 ⟨(mem_put h).2 (.inl rfl), rfl⟩

/-- Every other key finds what it found before. -/
theorem lookup_put_ne {l : List α} (h : Sorted key l) (x : α) {k : Nat} (ne : k ≠ key x) :
    lookup key k (put key x l) = lookup key k l := by
  cases e : lookup key k l with
  | none =>
    rw [lookup_eq_none] at e ⊢
    intro y hy
    rcases (mem_put h).1 hy with rfl | ⟨m, _⟩
    · exact fun e' => ne e'.symm
    · exact e y m
  | some y =>
    obtain ⟨m, rfl⟩ := (lookup_eq_some h).1 e
    exact (lookup_eq_some (sorted_put h x)).2 ⟨(mem_put h).2 (.inr ⟨m, ne⟩), rfl⟩

/-- A record whose key is in the table takes the place of the record that had it. -/
theorem put_eq_map {l : List α} (h : Sorted key l) {x y : α} (hy : y ∈ l) (e : key y = key x) :
    put key x l = l.map (fun z => if key z = key x then x else z) := by
  induction l with
  | nil => cases hy
  | cons z l ih =>
    obtain ⟨hz, hl⟩ := sorted_cons.1 h
    have rest : key x ≤ key z → l.map (fun z => if key z = key x then x else z) = l := fun le => by
      conv_rhs => rw [← List.map_id l]
      exact List.map_congr_left (fun w hw => by have := hz w hw; rw [if_neg (by omega)]; rfl)
    unfold put
    rcases List.mem_cons.1 hy with rfl | hy
    · rw [if_neg (by omega), if_pos e.symm, List.map_cons, if_pos e, rest (by omega)]
    · have := hz y hy
      rw [if_neg (by omega), if_neg (by omega), List.map_cons, if_neg (by omega), ih hl hy]

/-- A new key makes the table one longer. -/
theorem length_put_new {l : List α} (h : Sorted key l) (x : α) (new : ∀ y ∈ l, key y ≠ key x) :
    (put key x l).length = l.length + 1 := by
  induction l with
  | nil => rfl
  | cons y l ih =>
    have ne := new y (List.mem_cons_self ..)
    unfold put
    split
    · rfl
    · rw [if_neg (fun e => ne e.symm), List.length_cons, ih (sorted_cons.1 h).2 (fun z hz => new z (.tail _ hz)),
        List.length_cons]

end Sys2Proof.Machine.Table
end

