-- ==== Sys2Proof/Laws/Shared.lean ====
section
/-! SUPPORT. For each shared operation, once, all that it can do: events and requests, the conditions, making kinds due
and withdrawing entries, and the removal of hold records. -/

namespace Sys2Proof.Machine

variable (s : State)

/-! ### Events and requests -/

/-- While the reset line is held no event is taken (R183). -/
theorem State.event_held (f : State → State) (h : s.resetHeld = true) : s.event f = s := by simp [State.event, h]

/-- An event is taken whole, under a number of its own. -/
theorem State.event_taken (f : State → State) (h : s.resetHeld = false) :
    s.event f = f { s with events := s.events + 1 } := by simp [State.event, h]

/-- A request that finds a place reaches its owner, its reservation made (R160). -/
theorem State.request_taken (owner : State → State) (h : s.takes) : s.request owner = owner s.accepted := by
  obtain ⟨⟨r, p⟩, room⟩ := h
  have full : ¬(16 ≤ s.clp.completions.length + s.clp.reservations) := by omega
  simp [State.request, State.transact, State.takeRequest, State.queueFull, Config.completionPlaces, r, p, full,
    State.answer, State.accepted, acceptedByte]

/-- A completion posted for an accepted request is the request's answer. -/
theorem State.post_accepted (c : Completion) : s.accepted.post c = s.answered c := by
  simp [State.post, State.accepted, State.answered]

@[simp] theorem State.accepted_resetHeld : s.accepted.resetHeld = s.resetHeld := rfl
@[simp] theorem State.accepted_now : s.accepted.now = s.now := rfl
@[simp] theorem State.accepted_events : s.accepted.events = s.events + 1 := rfl
@[simp] theorem State.accepted_lac : s.accepted.lac = s.lac := rfl
@[simp] theorem State.accepted_tv : s.accepted.tv = s.tv := rfl
@[simp] theorem State.accepted_pt : s.accepted.pt = s.pt := rfl
@[simp] theorem State.accepted_ads : s.accepted.ads = s.ads := rfl
@[simp] theorem State.accepted_pf : s.accepted.pf = s.pf := rfl
@[simp] theorem State.accepted_hu : s.accepted.hu = s.hu := rfl
@[simp] theorem State.accepted_psu : s.accepted.psu = s.psu := rfl
@[simp] theorem State.accepted_sc : s.accepted.sc = s.sc := rfl
@[simp] theorem State.accepted_pending : s.accepted.pending = s.pending := rfl
@[simp] theorem State.accepted_slot (i : Fin 8) : s.accepted.slot i = s.slot i := rfl
@[simp] theorem State.accepted_entry (p : Fin 10) : s.accepted.entry p = s.entry p := rfl
@[simp] theorem State.accepted_ownId : s.accepted.ownId = s.ownId := rfl
@[simp] theorem State.accepted_portCount : s.accepted.portCount = s.portCount := rfl

/-- The line is listened to while receive activity is high and is not the echo. -/
theorem State.listens_eq_true : s.listens = true ↔ s.lac.activity = true ∧ s.lac.echo = false := by
  simp [State.listens]

/-! ### The four conditions (R166) -/

/-- ISOLATED takes its value, and a change is marked. -/
theorem State.setIsolated_eq (b : Bool) : s.setIsolated b =
    { s with lac.isolated := b, clp.marks.isolated := s.clp.marks.isolated || (s.lac.isolated != b) } := by
  unfold State.setIsolated
  split
  · rename_i h
    subst h
    simp
  · rename_i h
    simp [bne_iff_ne.2 h]

/-- MUTED takes its value, and a change is marked. -/
theorem State.setMuted_eq (b : Bool) : s.setMuted b =
    { s with sc.muted := b, clp.marks.muted := s.clp.marks.muted || (s.sc.muted != b) } := by
  unfold State.setMuted
  split
  · rename_i h
    subst h
    simp
  · rename_i h
    simp [bne_iff_ne.2 h]

/-- VIEW_INCOMPLETE takes its value, and a change is marked. -/
theorem State.setViewIncomplete_eq (b : Bool) : s.setViewIncomplete b =
    { s with tv.viewIncomplete := b,
             clp.marks.viewIncomplete := s.clp.marks.viewIncomplete || (s.tv.viewIncomplete != b) } := by
  unfold State.setViewIncomplete
  split
  · rename_i h
    subst h
    simp
  · rename_i h
    simp [bne_iff_ne.2 h]

/-- HOLDS_OVERFLOW takes its value, and a change is marked. -/
theorem State.setOverflow_eq (b : Bool) : s.setOverflow b =
    { s with hu.overflow := b, clp.marks.overflow := s.clp.marks.overflow || (s.hu.overflow != b) } := by
  unfold State.setOverflow
  split
  · rename_i h
    subst h
    simp
  · rename_i h
    simp [bne_iff_ne.2 h]

/-! ### The due list (R3, R5, R6) -/

/-- What stands in a place after an entry is written to some place. -/
theorem State.entry_setEntry (p q : Fin 10) (e : Option Entry) :
    (s.setEntry p e).entry q = if q = p then e else s.entry q := by
  split
  · rename_i h
    subst h
    simp
  · rename_i h
    exact s.entry_setEntry_ne p q e h

/-- Writing back what stands in a place changes nothing. -/
theorem State.setEntry_self (p : Fin 10) : s.setEntry p (s.entry p) = s := by
  simp [State.setEntry, State.entry]

/-- What making a kind due leaves in its place. -/
def State.dueEntry (s : State) (p : Fin 10) (k : FrameKind) (c : Fin 3) : Option Entry :=
  if s.sc.station = .muted then s.entry p
  else
    match s.entry p with
    | none => some (s.newEntry k c)
    | some e => some (if s.onLine p then e.follow k c else e.become k c)

/-- Making a kind due writes its place and nothing else. -/
theorem State.makeDue_eq (p : Fin 10) (k : FrameKind) (c : Fin 3) :
    s.makeDue p k c = s.setEntry p (s.dueEntry p k c) := by
  unfold State.makeDue State.dueEntry
  split
  · exact (s.setEntry_self p).symm
  · cases s.entry p <;> rfl

/-- Withdrawing an entry writes its place and nothing else. -/
theorem State.withdrawEntry_eq (p : Fin 10) : s.withdrawEntry p = s.setEntry p
    (if s.onLine p then (s.entry p).map (fun e => { e with withdrawn := true, followOn := none }) else none) := by
  unfold State.withdrawEntry
  cases h : s.entry p with
  | none => simpa [h] using (s.setEntry_self p).symm
  | some e => dsimp only; split <;> rfl

/-! ### Hold records and slots -/

/-- A key of a hold names its origin and its number. -/
theorem holdCode_inj {a b : Nat} {m n : BitVec 8} (h : holdCode a m = holdCode b n) : a = b ∧ m = n := by
  unfold holdCode at h
  have hm := m.isLt
  have hn := n.isLt
  have : a = b := by omega
  subst this
  exact ⟨rfl, BitVec.eq_of_toNat_eq (by omega)⟩

/-- Removing a record that is not there changes nothing. -/
theorem State.removeHold_absent {code : Nat} (h : ∀ r ∈ s.hu.holds, r.code ≠ code) : s.removeHold code = s := by
  simp [State.removeHold, Table.lookup_eq_none.2 h]

/-- A peer record is removed: it counts 1, and its place is free again (R88, R107). -/
theorem State.removeHold_peer (ok : s.HoldsOk) {r : Hold} (m : r ∈ s.hu.holds) (p : r.own = false) :
    s.removeHold r.code = s.peerGone r.code := by
  have e : Table.lookup Hold.code r.code s.hu.holds = some r := (Table.lookup_eq_some ok.sorted).2 ⟨m, rfl⟩
  simp [State.removeHold, e, p, State.setOverflow_eq, State.peerGone, State.count, Table.erase]

/-- The LIVE slot of an own record. -/
theorem State.HoldsOk.slot_live {s : State} (ok : s.HoldsOk) {h : Hold} (m : h ∈ s.hu.holds) (o : h.own = true) :
    ∃ i sub t, s.slot i = .live sub h.number t := by
  obtain ⟨i, l, n⟩ := ok.slot h m o
  refine ⟨i, ?_⟩
  cases e : s.slot i with
  | live sub k t => simp [e, Slot.number] at n; exact ⟨sub, t, by rw [n]⟩
  | _ => simp [e, Slot.isLive] at l

/-- The record of a LIVE slot. -/
theorem State.HoldsOk.ownHold_live {s : State} (ok : s.HoldsOk) {i : Fin 8} {sub : Substate} {n : BitVec 8} {t : Tag}
    (e : s.slot i = .live sub n t) :
    ∃ h ∈ s.hu.holds, h.own = true ∧ h.origin = s.ownId ∧ h.number = n ∧ s.ownHold n = some h := by
  obtain ⟨h, m, o, k⟩ := ok.record i (by simp [e, Slot.isLive])
  have number : h.number = n := by simpa [e, Slot.number] using k.symm
  have origin : h.origin = s.ownId := by
    have := ok.own h m
    rw [o] at this
    simpa using this.symm
  refine ⟨h, m, o, origin, number, (Table.lookup_eq_some ok.sorted).2 ⟨m, ?_⟩⟩
  rw [Hold.code, origin, number]

/-- The record of a LIVE slot is removed: it counts 1 (R88). -/
theorem State.removeHold_own (ok : s.HoldsOk) {i : Fin 8} {sub : Substate} {n : BitVec 8} {t : Tag}
    (e : s.slot i = .live sub n t) :
    s.removeHold (holdCode s.ownId n) = { s with
      hu.holds := s.hu.holds.filter (fun h => h.code != holdCode s.ownId n), tv.counter := s.tv.counter + 1#32 } := by
  obtain ⟨h, m, o, origin, number, found⟩ := ok.ownHold_live e
  unfold State.ownHold at found
  unfold State.removeHold
  rw [found]
  simp [o, State.count, Table.erase]

/-- A LIVE own hold ends (R95, R100, R101, R111, R112): its record goes, the HOLD COMMIT that waits on it completes with
the outcome, and its slot is `x`. -/
theorem State.endHold_live (ok : s.HoldsOk) {i : Fin 8} {sub : Substate} {n : BitVec 8} {t : Tag}
    (e : s.slot i = .live sub n t) (outcome : HoldOutcome) (x : Slot) :
    s.endHold i outcome x = State.ownGone i n x { s with
      clp.completions := s.clp.completions ++ (sub.commitTag.map (fun c =>
        (⟨.holdCommit, c, outcome.status, .none, false, .holdNumber n⟩ : Completion))).toList
      clp.reservations := s.clp.reservations - sub.commitTag.toList.length } := by
  rw [State.endHold, e]
  dsimp only [Slot.number]
  rw [s.removeHold_own ok e]
  have e' : s.hu.slots[i] = .live sub n t := e
  cases c : sub.commitTag <;>
    simp [State.completeCommit, State.slot, e', c, State.post, State.ownGone, Completion.carrying, State.setSlot,
      State.ownId]

/-! ### Invariants read only some of the state -/

/-- The form of the view rests on the TV and the SC alone. -/
theorem State.ViewForm.of_eq {s t : State} (h : s.ViewForm) (tv : t.tv = s.tv) (sc : t.sc = s.sc) : t.ViewForm := by
  cases s; cases t; cases tv; cases sc
  exact ⟨h.nodesSorted, h.linksSorted, h.room, h.peerLinks, h.nodes, h.links, h.fromNode, h.own⟩

/-- The form of the holds rests on the HU, the known nodes and the SC alone. -/
theorem State.HoldsOk.of_eq {s t : State} (h : s.HoldsOk) (hu : t.hu = s.hu) (tv : t.tv = s.tv) (sc : t.sc = s.sc) :
    t.HoldsOk := by
  cases s; cases t; cases hu; cases tv; cases sc
  exact ⟨h.sorted, h.disjoint, h.own, h.slot, h.record, h.numbers, h.peers, h.known, h.committed⟩

/-- The form of the block table rests on the block table alone. -/
theorem State.BlocksOk.of_eq {s t : State} (h : s.BlocksOk) (eq : t.hu.blocks = s.hu.blocks) : t.BlocksOk :=
  ⟨by rw [eq]; exact h.sorted, by rw [eq]; exact h.keys, by rw [eq]; exact h.marked, by rw [eq]; exact h.room⟩

end Sys2Proof.Machine
end

