-- ==== Sys2Proof/Laws/Holds.lean ====
section
/-! SUPPORT. Keys, windows and slots of holds; time and the holds; and what a good frame from another origin reaches. -/

namespace Sys2Proof.Machine

/-! ### Keys and windows -/

/-- Link keys with ports below 256 are told apart by their numbers. -/
theorem LinkKey.code_inj {a b : LinkKey} (ha : a.port < 256) (hb : b.port < 256) (h : a.code = b.code) : a = b := by
  unfold LinkKey.code at h
  obtain ⟨an, ap⟩ := a
  obtain ⟨bn, bp⟩ := b
  simp at *
  omega

/-- The port of a valid key. -/
theorem LinkKey.valid_port {k : LinkKey} (h : k.valid = true) : k.port ≤ 15 := by
  simp [LinkKey.valid] at h
  exact h.2

/-- The slots of a window's mask. -/
theorem windowMask_getLsbD (start width n : Nat) (h : start + width ≤ 64) :
    (windowMask start width).getLsbD n = decide (start ≤ n ∧ n < start + width) := by
  unfold windowMask
  rw [BitVec.getLsbD_ofNat, Nat.testBit_mul_two_pow, Nat.testBit_two_pow_sub_one]
  by_cases h1 : start ≤ n <;> by_cases h2 : n < start + width <;> simp [h1, h2] <;> omega

/-- Two windows meet exactly where they have a common slot (R89). -/
theorem windowsMeet_iff (a b c d : Nat) : windowsMeet a b c d = true ↔ ∃ n, a ≤ n ∧ n < a + b ∧ c ≤ n ∧ n < c + d := by
  simp only [windowsMeet, decide_eq_true_eq]
  constructor
  · intro h
    exact ⟨max a c, by omega, by omega, by omega, by omega⟩
  · rintro ⟨n, h1, h2, h3, h4⟩
    omega

/-- Two slot maps share no slot exactly where their conjunction is empty. -/
theorem and_eq_zero_iff (x y : BitVec 64) : (x &&& y == 0) = true ↔ ∀ n, ¬(x.getLsbD n = true ∧ y.getLsbD n = true) := by
  rw [beq_iff_eq]
  constructor
  · intro h n ⟨a, b⟩
    have := congrArg (fun v : BitVec 64 => v.getLsbD n) h
    simp [a, b] at this
  · intro h
    apply BitVec.eq_of_getLsbD_eq
    intro i _
    have := h i
    simp at this ⊢
    exact this

/-! ### Slots -/

/-- No slot is found for a number that none holds. -/
theorem State.findSlot_eq_none {s : State} {n : BitVec 8} (h : ∀ i : Fin 8, (s.slot i).number ≠ some n) :
    s.findSlot n = none := by simp [State.findSlot, allSlots, h]

/-- The one slot that holds a number is found. -/
theorem State.findSlot_eq_some {s : State} {n : BitVec 8} {i : Fin 8} (hi : (s.slot i).number = some n)
    (only : ∀ j : Fin 8, (s.slot j).number = some n → j = i) : s.findSlot n = some i := by
  have other : ∀ j : Fin 8, j ≠ i → (s.slot j).number ≠ some n := fun j hj e => hj (only j e)
  unfold State.findSlot allSlots
  fin_cases i <;> simp_all

/-! ### Time -/

/-- The milliseconds reported for a timer: exact at a whole millisecond, either way within one (log 6). -/
theorem reportMs_cases (e : Nat) : reportMs e = e / 1000 ∨ (reportMs e = e / 1000 + 1 ∧ e % 1000 ≠ 0) := by
  unfold reportMs bitsPerMs
  split
  · exact .inl rfl
  · split
    · exact .inr ⟨rfl, by assumption⟩
    · exact .inl rfl

/-- Time leaves a slot's number. -/
@[simp] theorem Slot.after_number (dt : Nat) (x : Slot) : (x.after dt).number = x.number := by
  unfold Slot.after; split <;> rfl

/-- Time leaves a LIVE slot LIVE. -/
@[simp] theorem Slot.after_isLive (dt : Nat) (x : Slot) : (x.after dt).isLive = x.isLive := by
  unfold Slot.after; split <;> rfl

/-- Time leaves a slot in COMMITTED, or out of it. -/
@[simp] theorem Slot.after_isCommitted (dt : Nat) (x : Slot) : (x.after dt).isCommitted = x.isCommitted := by
  unfold Slot.after; split <;> rfl

/-- A slot after some time. -/
theorem State.elapse_slot (s : State) (dt : Nat) (i : Fin 8) : (s.elapse dt).slot i = (s.slot i).after dt := by
  simp [State.elapse, State.slot]

/-- Time changes of a hold record at most the lifetime. -/
theorem State.elapse_holds (s : State) (dt : Nat) :
    ∃ f : Hold → Hold, (s.elapse dt).hu.holds = s.hu.holds.map f ∧ ∀ h, f h = { h with lifetime := (f h).lifetime } := by
  refine ⟨_, rfl, fun h => ?_⟩
  split <;> rfl

/-- Time keeps the hold table and the slots in their form. -/
theorem State.HoldsOk.elapse {s : State} (dt : Nat) (ok : s.HoldsOk) : (s.elapse dt).HoldsOk := by
  obtain ⟨f, holds, same⟩ := s.elapse_holds dt
  have code (h) : (f h).code = h.code := by rw [same]; rfl
  have own (h) : (f h).own = h.own := by rw [same]
  have origin (h) : (f h).origin = h.origin := by rw [same]
  have number (h) : (f h).number = h.number := by rw [same]
  have committed (h) : (f h).committed = h.committed := by rw [same]
  have overlaps (a b) : (f a).overlaps (f b) = a.overlaps b := by rw [same a, same b]; rfl
  constructor
  · rw [holds]
    exact List.pairwise_map.2 (ok.sorted.imp (fun {a b} h => by rw [code, code]; exact h))
  · rw [holds]
    exact List.pairwise_map.2 (ok.disjoint.imp (fun {a b} h => by rw [overlaps]; exact h))
  · rw [holds]
    intro h hm
    obtain ⟨x, m, rfl⟩ := List.mem_map.1 hm
    rw [own, origin]
    exact ok.own x m
  · rw [holds]
    intro h hm o
    obtain ⟨x, m, rfl⟩ := List.mem_map.1 hm
    rw [own] at o
    simpa [State.elapse_slot, number] using ok.slot x m o
  · intro i live
    rw [State.elapse_slot, Slot.after_isLive] at live
    obtain ⟨h, m, o, n⟩ := ok.record i live
    exact ⟨f h, by rw [holds]; exact List.mem_map_of_mem m, by rw [own]; exact o, by
      rw [State.elapse_slot, Slot.after_number, number]; exact n⟩
  · simpa [State.elapse_slot] using ok.numbers
  · have same : (s.elapse dt).peerHolds = s.peerHolds := by
      unfold State.peerHolds
      rw [holds, List.filter_map, List.length_map]
      congr 2
      funext h
      simp [own]
    rw [same]
    exact ok.peers
  · rw [holds]
    intro h hm o
    obtain ⟨x, m, rfl⟩ := List.mem_map.1 hm
    rw [own] at o
    rw [origin]
    exact ok.known x m o
  · rw [holds]
    intro h hm o i n
    obtain ⟨x, m, rfl⟩ := List.mem_map.1 hm
    rw [own] at o
    rw [State.elapse_slot, Slot.after_number, number] at n
    rw [committed, State.elapse_slot, Slot.after_isCommitted]
    exact ok.committed x m o i n

/-! ### A good frame from another origin -/

/-- The end of isolation leaves the HU. -/
@[simp] theorem State.heard_hu (s : State) : s.heard.hu = s.hu := by
  unfold State.heard State.endIsolation
  split
  · simp only [State.setIsolated_eq, State.contentReport]
    (repeat' split) <;> simp [State.makeAdvertDue, State.makeDue_eq]
  · rfl

/-- The end of isolation leaves the TV. -/
@[simp] theorem State.heard_tv (s : State) : s.heard.tv = s.tv := by
  unfold State.heard State.endIsolation
  split
  · simp only [State.setIsolated_eq, State.contentReport]
    (repeat' split) <;> simp [State.makeAdvertDue, State.makeDue_eq]
  · rfl

/-- The end of isolation leaves the SC. -/
@[simp] theorem State.heard_sc (s : State) : s.heard.sc = s.sc := by
  unfold State.heard State.endIsolation
  split
  · simp only [State.setIsolated_eq, State.contentReport]
    (repeat' split) <;> simp [State.makeAdvertDue, State.makeDue_eq]
  · rfl

/-- The end of isolation keeps the hold table and the slots in their form. -/
theorem State.HoldsOk.heard {s : State} (ok : s.HoldsOk) : s.heard.HoldsOk := ok.of_eq s.heard_hu s.heard_tv s.heard_sc

/-- A good frame from another origin reaches the block of its kind, after the end of isolation (R17, R19). -/
theorem State.receiveFrame_heard {s : State} {origin : BitVec 16} {body : List Byte} (h : s.hears origin body)
    (k : FrameKind) :
    s.event (State.receiveFrame k origin body) = (match k with
      | .advert => s.heard.advertFrame origin.toNat body
      | .withdraw => s.heard.advertFrame origin.toNat body
      | .solicit => s.heard.solicitFrame
      | .announce => s.heard.holdFrame .announce origin.toNat body
      | .object => s.heard.holdFrame .object origin.toNat body
      | .commit => s.heard.holdFrame .commit origin.toNat body
      | .release => s.heard.releaseFrame origin.toNat body) := by
  obtain ⟨running, active, echo, joined, valid, short, other⟩ := h
  have listening : ({ s with events := s.events + 1 } : State).listens = true := s.listens_eq_true.2 ⟨active, echo⟩
  rw [State.event_taken _ _ running, State.receiveFrame, if_pos listening, if_pos ⟨valid, short⟩, State.receiveGood,
    if_neg (by simp [joined])]
  exact if_neg other

/-- The receipt of a hold frame (R104). -/
theorem exec_holdRow {s : State} {k : FrameKind} {origin : BitVec 16} {body : List Byte} {c : Instr}
    (h : s.hears origin body) (row : holdRow k origin body = some c) :
    exec c s = .next (s.heard.holdFrame k origin.toNat body) := by
  cases k <;> simp [holdRow] at row <;> subst row
  · exact congrArg _ (State.receiveFrame_heard h .announce)
  · exact congrArg _ (State.receiveFrame_heard h .object)
  · exact congrArg _ (State.receiveFrame_heard h .commit)

end Sys2Proof.Machine
end

