-- ==== Sys2Proof/Laws/Line.lean ====
section
/-! SUPPORT. The port and the domain line: when a transaction is ignored and what the send output gives; the runs on the
line and the comparison of their echo; the receive assembler; and the end of an attempt, whichever command brings it. -/

namespace Sys2Proof.Machine

variable (s : State)

/-! ### The port (R158, R169) -/

/-- A transaction while the port is idle is taken. -/
theorem State.transact_open (f : State → State) (h : s.portOpen) :
    s.transact f = f { s with events := s.events + 1 } := by simp [State.transact, h.1, h.2]

/-- Until select is released the bytes the host sends change nothing. -/
theorem State.transact_ignored (f : State → State) (r : s.resetHeld = false) (p : s.clp.port ≠ .idle) :
    s.transact f = s := by simp [State.transact, r, p]

/-- From the decision on the send output gives the answer's bytes, and then filler. -/
theorem State.sendOutput_answer (sent : List Byte) (n : Nat) :
    (s.answer sent).sendOutput n = sent.getD n fillerByte := by simp [State.answer, State.sendOutput]

/-- Before the decision the send output gives filler. -/
theorem State.sendOutput_before (n : Int) (h : n < 0) : s.sendOutput n = fillerByte := by
  unfold State.sendOutput
  split <;> simp [h]

/-- Where no answer goes out the send output gives filler. -/
theorem State.sendOutput_filler (n : Int) (h : ∀ sent, s.clp.port ≠ .answering sent) : s.sendOutput n = fillerByte := by
  unfold State.sendOutput
  split
  · rename_i sent e
    exact absurd e (h sent)
  · rfl

/-! ### Runs on the line (R2, R10 to R12, R15) -/

/-- A frame goes out in eight bit times a byte: preamble and delimiters take four bytes' time. -/
@[simp] theorem lineRun_length (frame : List Byte) : (lineRun frame).length = 8 * (frame.length + 4) := by
  have : ∀ l : List Byte, (l.flatMap byteBits).length = 8 * l.length := by
    intro l
    induction l with
    | nil => rfl
    | cons b l ih => simp [byteBits, ih]; omega
  simp [lineRun, this, preamble, startDelimiter, endDelimiter]
  omega

/-- A whole transmission is the run of its frame. -/
@[simp] theorem Transmission.bits_whole (t : Nat) (frame : List Byte) :
    (⟨t, frame, none⟩ : Transmission).bits = lineRun frame := rfl

/-- A cut transmission is the part that went out and the abort delimiter. -/
@[simp] theorem Transmission.bits_cut (t n : Nat) (frame : List Byte) :
    (⟨t, frame, some n⟩ : Transmission).bits = (lineRun frame).take n ++ abortDelimiter := rfl

/-- While no attempt is on the line the last run goes out as it was left. -/
theorem State.run_free (h : s.lac.attempt = none) : s.run = s.lac.sending := by simp [State.run, h]

/-- The echo of the attempt on the line is lost where its frame was broken off, or at the limit without an echo (R11). -/
theorem State.echoLoss_eq_some (a : Attempt) (n : Nat) : s.echoLoss a = some n ↔
    s.brokenOff = some n ∨
      (s.brokenOff = none ∧ s.lac.echo = false ∧ a.startedAt + echoLimit ≤ s.now ∧ n = echoLimit) := by
  unfold State.echoLoss
  cases s.brokenOff with
  | some m => simp
  | none => simp; tauto

/-- The part of a cut frame that has gone out, in the words of the statements. -/
theorem State.sentBefore_eq (a : Attempt) : (s.echoLoss a).getD (s.now - a.startedAt) = s.sentBefore a := by
  unfold State.echoLoss State.sentBefore State.brokenOff
  cases s.lac.sending.bind Transmission.cut with
  | some n => rfl
  | none =>
    by_cases h : s.lac.echo = false ∧ a.startedAt + 12 ≤ s.now
    · simp [h, echoLimit]
    · rw [if_neg h, if_neg (by
        rw [Bool.and_eq_true, Bool.not_eq_true', decide_eq_true_iff]
        exact h)]
      rfl

/-- A rise after the echo limit touches the run on the line alone. -/
theorem State.missLimit_eq : s.missLimit = { s with lac.sending := s.missLimit.lac.sending } := by
  unfold State.missLimit State.breakOff
  (repeat' split) <;> rfl

/-- Once a run is over, transmit data carries nothing. -/
theorem State.lineOut_over {x : Transmission} (h : s.run = some x) (t : Nat)
    (ended : x.startedAt + x.bits.length ≤ t) : s.lineOut t = none := by
  simp only [State.lineOut, h, Option.bind_some]
  split
  · rfl
  · exact List.getElem?_eq_none (by omega)

/-! ### The echo (R12) -/

/-- A run matches itself. -/
@[simp] theorem firstMismatch_self (l : List LineBit) : firstMismatch l l = none := by
  induction l with
  | nil => rfl
  | cons x xs ih => simp [firstMismatch, ih]

/-- The first mismatch: its bit differs, and every bit before it is the bit sent in its position. -/
theorem firstMismatch_eq_some (sent echo : List LineBit) (n : Nat) : firstMismatch sent echo = some n ↔
    1 ≤ n ∧ n ≤ sent.length ∧ n ≤ echo.length ∧ sent[n - 1]? ≠ echo[n - 1]? ∧
      ∀ k, k + 1 < n → sent[k]? = echo[k]? := by
  induction sent generalizing echo n with
  | nil => simp [firstMismatch]; omega
  | cons x xs ih =>
    cases echo with
    | nil => simp [firstMismatch]; omega
    | cons y ys =>
      rcases n with _ | _ | m
      · by_cases e : x = y <;> simp [firstMismatch, e]
      · by_cases e : x = y <;> simp [firstMismatch, e, ih]
      · by_cases e : x = y
        · simp only [firstMismatch, e, if_true, Option.map_eq_some_iff, Nat.add_right_cancel_iff, exists_eq_right, ih,
            List.length_cons]
          constructor
          · rintro ⟨h1, h2, h3, h4, h5⟩
            refine ⟨by omega, by omega, by omega, by simpa using h4, fun k hk => ?_⟩
            cases k with
            | zero => rfl
            | succ k => simpa using h5 k (by omega)
          · rintro ⟨-, h2, h3, h4, h5⟩
            exact ⟨by omega, by omega, by omega, by simpa using h4, fun k hk => by simpa using h5 (k + 1) (by omega)⟩
        · simp only [firstMismatch, e, if_false]
          refine ⟨nofun, fun ⟨_, _, _, _, h5⟩ => absurd (by simpa using h5 0 (by omega)) e⟩

/-! ### The receive assembler (R16, R185) -/

/-- Bit times taken one run after another. -/
@[simp] theorem Assembler.after_append (a : Assembler) (l m : List LineBit) :
    a.after (l ++ m) = (a.after l).after m := by
  simp [Assembler.after]

/-- The frames that end in one run after another. -/
@[simp] theorem Assembler.ended_append (a : Assembler) (l m : List LineBit) :
    a.ended (l ++ m) = a.ended l ++ (a.after l).ended m := by
  induction l generalizing a with
  | nil => rfl
  | cons b l ih => simp [Assembler.ended, Assembler.after, ih]

/-- Before a start delimiter data bits are ignored. -/
@[simp] theorem Assembler.take_outside (d : Bool) : Assembler.waiting.take (.data d) = (.waiting, none) := rfl

/-- Inside a frame a data bit is collected while there is room for it. -/
theorem Assembler.take_inside (bits : List Bool) (d : Bool) (h : bits.length < 8 * collectedBytes) :
    (⟨some bits, []⟩ : Assembler).take (.data d) = (⟨some (bits ++ [d]), []⟩, none) := by simp [Assembler.take, h]

/-- A frame ends at most once in a bit time, and only where one is being assembled. -/
theorem Assembler.take_ends {a : Assembler} {b : LineBit} {x : List Bool × FrameEnd} (h : (a.take b).2 = some x) :
    a.frame = some x.1 := by
  unfold Assembler.take at h
  (repeat' split at h) <;> simp_all [Assembler.endGroup]
  · rw [← h]
  · obtain ⟨bits, e, rfl⟩ := h
    exact e

/-- While the line delivers frames that are all dropped, the assembler alone changes. -/
theorem State.receiveLine_dropped (line : List LineBit) (active : s.lac.activity = true) (echo : s.lac.echo = false)
    (h : (s.lac.assembler.ended line).filterMap judgeEnded = []) :
    s.receiveLine line = { s with lac.assembler := s.lac.assembler.after line } := by
  simp [State.receiveLine, State.listens, active, echo, h]

/-- The station's own echo is never received as a frame (R11). -/
theorem State.receiveLine_echo (line : List LineBit) (echo : s.lac.echo = true) : s.receiveLine line = s := by
  simp [State.receiveLine, State.listens, echo]

/-! ### The end of an attempt (R7, R11 to R13) -/

/-- What follows a failed attempt in the state `u` at its end: the entry is gone, is followed, backs off or
is dropped. -/
def State.settled (a : Attempt) (u : State) : State :=
  match u.entry a.place with
  | none => u
  | some e =>
    if e.followOn.isSome || e.withdrawn then u.takeFollowOn a.place e
    else if e.attempts < 7 then u.backOff a.place e
    else (u.setEntry a.place none).reportDropped a.place a.kind

/-- A failed attempt runs to the end of its abort delimiter, and then its place is settled. -/
theorem State.failAttempt_eq (a : Attempt) (n : Nat) : State.failAttempt a n { s with events := s.events + 1 } =
    (s.attemptAborted a n).settled a := rfl

/-- Each of the ways in which an attempt fails settles its place in the state at its end. -/
theorem State.exec_fails {s u : State} {a : Attempt} {c : Instr} (h : s.resetHeld = false)
    (on : s.lac.attempt = some a) (fails : s.failsBy a c u) : exec c s = .next (u.settled a) := by
  rcases fails with ⟨echo, n, c, mismatch, rfl⟩ | ⟨n, rfl, rfl, lost⟩
  · have : State.judgeEcho echo { s with events := s.events + 1 } = (s.attemptAborted a n).settled a := by
      simp [State.judgeEcho, on, mismatch, State.failAttempt_eq]
    exact c ▸ congrArg _ ((s.event_taken _ h).trans this)
  · refine congrArg _ ((s.event_taken _ h).trans ?_)
    simp only [on, State.brokenOff]
    rcases lost with e | ⟨e, silent, rfl⟩
    · simp only [e]
      rfl
    · simp only [e, silent]
      rfl

/-- The whole echo, matched to the end delimiter, ends the attempt as succeeded at the end of the frame. -/
theorem State.exec_succeeds {s : State} {a : Attempt} {c : Instr} (h : s.resetHeld = false)
    (on : s.lac.attempt = some a) (succeeds : succeedsBy a c) : exec c s =
      .next (({ s with events := s.events + 1 }.elapse (a.startedAt + a.bits - s.now)).succeedAttempt a) := by
  have : State.judgeEcho (lineRun a.frame) { s with events := s.events + 1 } =
      (({ s with events := s.events + 1 }.elapse (a.startedAt + a.bits - s.now)).succeedAttempt a) := by
    simp [State.judgeEcho, on, Attempt.bits]
  rcases succeeds with rfl | rfl
  · refine congrArg _ ((s.event_taken _ h).trans ?_)
    simp only [on]
    exact this
  · exact congrArg _ ((s.event_taken _ h).trans this)

/-- The end of an attempt before its place is settled, in the words of the statements. -/
theorem State.closeAttempt_eq (a : Attempt) (bits : Nat) :
    ({ s with events := s.events + 1 }.elapse (a.startedAt + bits - s.now)).closeAttempt bits =
      s.attemptOver a bits := rfl

end Sys2Proof.Machine
end

