-- ==== Sys2Proof/Laws/Search.lean ====
section
/-! SUPPORT. The path search: the order of labels, the least and the worst of a frontier, the next window, the path of
a best arrival, and the queue that ABORT looks through. -/

namespace Sys2Proof.Machine

/-- The order of labels in words (R125). -/
theorem Label.better_iff (a b : Label) : a.better b = true ↔ a.cost < b.cost ∨ (a.cost = b.cost ∧ (a.noise < b.noise ∨
    (a.noise = b.noise ∧ (a.hops < b.hops ∨ (a.hops = b.hops ∧ a.node < b.node))))) := by
  unfold Label.better
  split <;> [skip; split] <;> [skip; skip; split] <;> simp <;> omega

/-- No two labels are better than each other. -/
theorem Label.better_asymm {a b : Label} (h : a.better b = true) : b.better a = false := by
  rw [Label.better_iff] at h
  rw [← Bool.not_eq_true, Label.better_iff]
  omega

/-- The least label is one of the list. -/
theorem leastLabel_mem {l : List Label} {m : Label} (e : leastLabel l = some m) : m ∈ l := by
  induction l generalizing m with
  | nil => simp [leastLabel] at e
  | cons y l ih =>
    simp only [leastLabel] at e
    split at e
    · simp at e
      simp [e]
    · rename_i z hz
      split at e <;> simp at e <;> subst e
      · simp [ih hz]
      · simp

/-- There is a least label but in an empty list. -/
theorem leastLabel_eq_none {l : List Label} : leastLabel l = none ↔ l = [] := by
  cases l with
  | nil => simp [leastLabel]
  | cons x l => simp only [leastLabel]; split <;> [simp; (split <;> simp)]

/-- A label better than every other of the list is the least. -/
theorem leastLabel_eq_some {l : List Label} {n : Label} (hn : n ∈ l) (h : ∀ m ∈ l, m ≠ n → n.better m = true) :
    leastLabel l = some n := by
  induction l with
  | nil => cases hn
  | cons x l ih =>
    by_cases xn : x = n
    · subst xn
      cases e : leastLabel l with
      | none => simp [leastLabel, e]
      | some m =>
        by_cases mx : m = x
        · subst mx
          simp [leastLabel, e]
        · simp [leastLabel, e, Label.better_asymm (h m (.tail _ (leastLabel_mem e)) mx)]
    · have hn' : n ∈ l := by simpa [Ne.symm xn] using hn
      rw [leastLabel, ih hn' (fun m hm => h m (.tail _ hm))]
      simp [h x (List.mem_cons_self ..) xn]

/-- The worst label is one of the list. -/
theorem worstLabel_mem {l : List Label} {m : Label} (e : worstLabel l = some m) : m ∈ l := by
  induction l generalizing m with
  | nil => simp [worstLabel] at e
  | cons y l ih =>
    simp only [worstLabel] at e
    split at e
    · simp at e
      simp [e]
    · rename_i z hz
      split at e <;> simp at e <;> subst e
      · simp [ih hz]
      · simp

/-- A label that every other of the list is better than is the worst. -/
theorem worstLabel_eq_some {l : List Label} {n : Label} (hn : n ∈ l) (h : ∀ m ∈ l, m ≠ n → m.better n = true) :
    worstLabel l = some n := by
  induction l with
  | nil => cases hn
  | cons x l ih =>
    by_cases xn : x = n
    · subst xn
      cases e : worstLabel l with
      | none => simp [worstLabel, e]
      | some m =>
        by_cases mx : m = x
        · subst mx
          simp [worstLabel, e]
        · simp [worstLabel, e, Label.better_asymm (h m (.tail _ (worstLabel_mem e)) mx)]
    · have hn' : n ∈ l := by simpa [Ne.symm xn] using hn
      rw [worstLabel, ih hn' (fun m hm => h m (.tail _ hm))]
      simp [h x (List.mem_cons_self ..) xn]

/-- The sweep's next window, in the words of the statements (R123, R124). -/
theorem Context.nextWindow_eq_swept (c : Context) : c.nextWindow = c.swept := by
  have lt : c.window + c.request.width ≤ c.request.hi ↔ c.window < c.request.hi + 1 - c.request.width := by omega
  simp only [Context.nextWindow, Context.swept, PathRequest.windowAfter, PathRequest.lastStart, lt]
  cases e : c.request.fit
  · by_cases h : c.window < c.request.hi + 1 - c.request.width <;> simp [h]
  · by_cases h : c.request.lo < c.window <;> simp [h]
  · by_cases h : c.window < c.request.hi + 1 - c.request.width <;> simp [h]

/-- The path rebuilt from the settled tree (R133) is the chain of arrivals from the source to the end. -/
theorem rebuildPath_eq (tree : List Label) (path acc : List (LinkKey × Nat)) (k : LinkKey) (r n : Nat)
    (first : LinkKey × Nat) (short : path.length ≤ n + 1) (last : path.getLast? = some (k, r))
    (head : path.head? = some first)
    (chain : path.IsChain (fun x y => x.2 = y.1.node ∧
      ∃ l, tree.find? (fun z => z.node == y.1.node) = some l ∧ l.arrival = some x.1))
    (source : ∃ l, tree.find? (fun z => z.node == first.1.node) = some l ∧ l.arrival = none) :
    rebuildPath tree n k r acc = path ++ acc := by
  induction n generalizing path acc k r with
  | zero =>
    match path with
    | [x] => simp at last; subst last; simp [rebuildPath]
    | [] => simp at head
    | _ :: _ :: _ => simp at short
  | succ n ih =>
    rcases List.eq_nil_or_concat path with rfl | ⟨p, x, rfl⟩
    · simp at head
    · simp at last
      subst last
      rcases List.eq_nil_or_concat p with rfl | ⟨q, y, rfl⟩
      · simp at head
        subst head
        obtain ⟨⟨_, _, _, _, _, _⟩, found, none⟩ := source
        simp at none
        subst none
        rw [rebuildPath, found]
        simp
      · simp only [List.concat_eq_append] at *
        have parts := chain
        rw [List.append_assoc, List.isChain_append] at parts
        obtain ⟨-, step, -⟩ := parts
        simp at step
        obtain ⟨joined, ⟨_, _, _, _, _, _⟩, found, arrived⟩ := step
        simp at arrived
        subst arrived
        rw [rebuildPath, found]
        simp only
        rw [ih (q ++ [y]) ((k, r) :: acc) y.1 k.node]
        · simp
        · simp at short ⊢; omega
        · simp [← joined]
        · simpa using head
        · rw [List.isChain_append] at chain
          exact chain.1

/-- ABORT finds no request where none has its tag (R137). -/
theorem takeTagged_eq_none {tag : Tag} {l : List PathRequest} (h : ∀ x ∈ l, x.tag ≠ tag) : takeTagged tag l = none := by
  induction l with
  | nil => rfl
  | cons x l ih => simp [takeTagged, h x (List.mem_cons_self ..), ih (fun y hy => h y (.tail _ hy))]

/-- ABORT finds the oldest request with its tag (R137). -/
theorem takeTagged_eq_some {tag : Tag} {before after : List PathRequest} {r : PathRequest}
    (h : ∀ x ∈ before, x.tag ≠ tag) (hr : r.tag = tag) :
    takeTagged tag (before ++ r :: after) = some (r, before ++ after) := by
  induction before with
  | nil => simp [takeTagged, hr]
  | cons x l ih => simp [takeTagged, h x (List.mem_cons_self ..), ih (fun y hy => h y (.tail _ hy))]

end Sys2Proof.Machine
end

