-- ==== Sys2Proof/WellFormed.lean ====
section
/-! DEFINITION. Which commands can occur as they are written: what the rows' own descriptions promise of their
operands. A command that is not well formed still has a meaning. -/

namespace Sys2Proof

open Machine

/-- What a good frame from the line can carry (R16): a valid origin and a body of at most 512 bytes. -/
def goodFrame (origin : BitVec 16) (body : List Byte) : Bool :=
  validNode origin.toNat && decide (body.length ≤ maxBody)

/-- The bit times of the longest frame, 523 bytes (R2). -/
def longestFrameBits : Nat := 8 * 523

/-- The command is one its row describes. -/
def Instr.wellFormed : Instr → Bool
  | .identity _ _ _ _ _ => true
  | .timing _ _ _ _ _ _ _ _ _ => true
  | .profile _ _ _ _ _ _ => true
  | .join _ => true
  | .leave _ => true
  | .portSet _ _ _ _ _ _ _ => true
  | .portTrace _ _ _ => true
  | .portTraceLoss _ _ => true
  | .path _ _ => true
  | .abort _ _ => true
  | .holdCommit _ _ => true
  | .holdRelease _ _ => true
  | .poll _ => true
  | .blockSet _ _ _ operation _ => operation != 1
  | .blockClear _ _ _ operation _ => operation != 0
  | .trim _ _ _ => true
  | .queryNode _ _ _ => true
  | .queryLink _ _ _ _ => true
  | .queryPort _ _ => true
  | .queryOwnHold _ _ => true
  | .queryOwnHoldLink _ _ _ => true
  | .status _ => true
  | .fetch _ => true
  | .malformed kind subject length => headerMalformed kind subject length
  | .selectRelease => true
  | .resetLineAssert => true
  | .resetLineRelease => true
  | .receiveActivityRise _ => true
  | .receiveActivityFall _ => true
  | .frameDropped received ending =>
    (Assembler.waiting.ended (received ++ ending)).all (fun x => (judgeEnded x).isNone)
  | .advertReceived origin body => goodFrame origin body
  | .solicitReceived origin body => goodFrame origin body
  | .announceReceived origin body => goodFrame origin body
  | .objectReceived origin body => goodFrame origin body
  | .commitReceived origin body => goodFrame origin body
  | .releaseReceived origin body => goodFrame origin body
  | .duplicateIdentity => true
  | .attemptStart _ => true
  | .attemptSucceeded => true
  | .collision echo => decide (1 ≤ echo.length) && decide (echo.length ≤ longestFrameBits)
  | .echoLost => true
  | .riTick => true
  | .silenceWatchExpiry => true
  | .contestExpiry _ => true
  | .holdLifetimeExpiry _ => true
  | .peerLifetimeExpiry origin _ => validNode origin.toNat
  | .searchStart => true
  | .passStart => true
  | .selectionStep => true
  | .searchCompletion => true
  | .searchAbortEnd => true

end Sys2Proof
end

