-- ==== Sys2Proof/Tests/Slice0.lean ====
section
/-! SUPPORT. The model's own tests: what the well-formedness check refuses, figures and single steps taken from the
worked cases of spec/, and for each statement of Certificates/Slice0/Obligations.lean values that meet its
hypotheses. -/

namespace Sys2Proof.Tests

-- One test after another: run at once, each waiting for its kernel evaluation holds a thread with its stack.
set_option Elab.async false

open Sys2Proof Sys2Proof.Machine

/-! ### States -/

/-- The next state of a command, for the tests alone. -/
def did (c : Instr) (s : State) : State :=
  match exec c s with
  | .next t => t
  | _ => State.reset

/-- The identity of station A (section 3.8). -/
def identityA : Identity := ⟨10, 0, true, 4⟩

/-- Timing values: RI 2 s, join listen 2, watch 1 s, and the values of sections 1.11 and 6.9. -/
def timingA : Timing := ⟨2, 2, 1000, 20, 30, 600, 8, 16⟩

/-- Station A configured, not joined. -/
def configured : State :=
  { State.reset with
    lac.lfsr := 10
    pt.ports := ((State.reset.pt.ports.set 1 ⟨true, 10, 1200, 1700, 0, .heard 20 3⟩).set 2
      ⟨true, 8, 2000, 1600, 0, .heard 30 2⟩).set 3 ⟨true, 1, 800, -200, 0, .dark⟩
    pf.profiles := (State.reset.pf.profiles.set 0 ⟨256, 400, 150, 150, 0, 0⟩).set 1 ⟨320, 520, 200, 180, 2, -4⟩
    sc := ⟨.configured, some identityA, some timingA, false, none, 0, none, none⟩ }

/-- The view of the worked case (section 8.7). On B:1, slots 20, 21 and 24 are used. -/
def viewA : Tv :=
  { nodes := [⟨10, 0, true, 412, 0, true, 0⟩, ⟨20, 1, true, 65530, 4, false, 0⟩, ⟨30, 0, true, 7, 2, false, 0⟩,
      ⟨40, 1, true, 9, 9, false, 0⟩]
    links := [⟨⟨10, 1⟩, 20, 3, 10, 1200, 1700, 0, true⟩, ⟨⟨10, 2⟩, 30, 2, 8, 2000, 1600, 0, true⟩,
      ⟨⟨20, 1⟩, 40, 4, 12, 900, 1500, 0x1300000, true⟩, ⟨⟨20, 3⟩, 10, 1, 10, 1200, 1700, 0, true⟩,
      ⟨⟨30, 1⟩, 40, 5, 9, 1500, -300, 0, true⟩, ⟨⟨30, 2⟩, 10, 2, 8, 2000, 1600, 0, true⟩,
      ⟨⟨40, 4⟩, 20, 1, 12, 900, 1500, 0, true⟩, ⟨⟨40, 5⟩, 30, 1, 9, 1500, -300, 0, true⟩]
    viewIncomplete := false
    counter := 8000 }

/-- Station A, OPERATING, without holds (section 7.8). -/
def stationA : State :=
  { configured with
    lac.budget := 128
    lac.idle := 100
    lac.activity := true
    lac.watch := .running 0
    tv := viewA
    ads := ⟨0, 412, 0, 2, false, .clear, false⟩
    sc := ⟨.operating, some identityA, some timingA, false, some 5, 2, none, none⟩ }

/-- A place of the due list with a kind. -/
def due (k : FrameKind) (c : Fin 3) : Option Entry := some ⟨k, c, 0, 0, none, none, false⟩

/-- An own hold of station A on one slot of A:1. -/
def ownHoldA (n : BitVec 8) (slot : Nat) (established committed : Bool) (lifetime : Option Nat) : Hold :=
  ⟨10, n, true, 1, established, committed, slot, 1, [⟨10, 1⟩], lifetime⟩

/-- Station A with a hold in every slot state, two peer holds and a block. -/
def stationH : State :=
  { stationA with
    lac.due := ((stationA.lac.due.set 1 (due .announce 1)).set 3 (due .commit 1)).set 5 (due .release 1)
    hu := { holds := [⟨10, 5, true, 1, true, false, 0, 2, [⟨10, 2⟩, ⟨30, 1⟩], some 12000000⟩,
              ownHoldA 6 4 false false none, ownHoldA 7 6 false false none, ownHoldA 8 8 true false (some 9000),
              ownHoldA 9 10 true true (some 600000000),
              ⟨20, 7, false, 0, false, false, 20, 2, [⟨20, 1⟩], some 5000⟩,
              ⟨40, 3, false, 3, false, false, 30, 1, [⟨40, 4⟩], some 31020000⟩]
            slots := #v[.live .held 5 31, .live (.pending none) 6 32, .live (.announced 500 (some 66)) 7 33,
              .live (.committing 65) 8 34, .live .committed 9 35, .closing 10 36 .expired true,
              .ended 11 37 .lost, .free]
            lastNumber := 11
            blocks := [⟨⟨40, 4⟩, 3⟩]
            overflow := false }
    clp.reservations := 2
    pending := [.poll 9, .riTick] }

/-- The line has been idle for the 100 bit times of the idle count. -/
def quiet (s : State) : State := { s with lac.activity := false }

/-! ### Well-formed commands: one ill-formed term for each check -/

theorem test_wellFormed_blockSet : (Instr.blockSet 1 20 4 1 3).wellFormed = false := by decide
theorem test_wellFormed_blockClear : (Instr.blockClear 1 20 4 0 3).wellFormed = false := by decide
theorem test_wellFormed_malformed : (Instr.malformed 0x13 0 0).wellFormed = false := by decide
theorem test_wellFormed_frameDropped :
    (Instr.frameDropped ((lineRun (frameBytes .solicit 20 [])).take 80) endDelimiter).wellFormed = false := by
  decide +kernel
theorem test_wellFormed_origin : (Instr.solicitReceived 0 []).wellFormed = false := by decide
theorem test_wellFormed_body : (Instr.releaseReceived 20 (List.replicate 513 0)).wellFormed = false := by decide +kernel
theorem test_wellFormed_collision : (Instr.collision []).wellFormed = false := by decide
theorem test_wellFormed_peer : (Instr.peerLifetimeExpiry 65535 1).wellFormed = false := by decide
theorem test_wellFormed_accepts : (Instr.blockSet 1 20 4 0 3).wellFormed = true ∧
    (Instr.malformed 0x13 0 1).wellFormed = true ∧ (Instr.collision [.j]).wellFormed = true ∧
    (Instr.frameDropped ((lineRun (frameBytes .solicit 20 [])).take 80) abortDelimiter).wellFormed = true := by
  decide +kernel

/-! ### Figures of the spec -/

/-- The check of the nine digits, the figure that section 1.2 gives for its polynomial. -/
theorem test_crc_check : crc16 [0x31, 0x32, 0x33, 0x34, 0x35, 0x36, 0x37, 0x38, 0x39] = 0x29B1 := by decide +kernel

/-- Section 1.11: the first draw takes the generator from 0x000A to 0x0005, a backoff of 64 bit times. -/
theorem test_backoff_draw : advanceLfsr 0x000A = 0x0005 ∧ backoffBits 0x0005 1 = 64 := by decide

/-- Sections 11.2 and 1.11: full lengths of an ADVERT with four entries, a SOLICIT and an ANNOUNCE with 14 links. -/
theorem test_full_lengths : fullLength (12 + 18 * 4) = 95 ∧ fullLength 0 = 11 ∧ fullLength (7 + 3 * 14) = 60 := by
  decide

/-- Section 11.3's word for far node 40, far port 7, and the damaged word of section 3.8. -/
theorem test_trace_word : readTraceWord 0x00287094 = some (40, 7) ∧ readTraceWord 0x00287095 = none := by decide

/-- Section 5.3's table: effective penalties at trims -1, -4 and +7. -/
theorem test_effective_penalty : effectivePenalty 520 (-1) = 504 ∧ effectivePenalty 180 (-4) = 158 ∧
    effectivePenalty 60000 7 = 65535 ∧ effectivePenalty 53772 7 = 65535 := by decide

/-- Section 8.10's table of link noise. -/
theorem test_link_noise : linkNoise 1 ⟨320, 0, 0, 0, 2, 0⟩ = 2 ∧ linkNoise 15902 ⟨1023, 0, 0, 0, 1, 0⟩ = 65532 ∧
    linkNoise 15903 ⟨1023, 0, 0, 0, 1, 0⟩ = 65535 ∧ linkNoise 900 ⟨320, 0, 0, 0, 2, 0⟩ = 1196 := by decide

/-- Sections 8.8 and 8.10: margins and headrooms. -/
theorem test_margin : margin 6000 4208 = 365 ∧ margin 6000 5999 = 256 ∧ margin 1048575 4208 = 65535 ∧
    margin 300 1 = 65535 ∧ headroom 0 3000 1300 = 1300 ∧ headroom 1500 3300 3200 = 100 := by decide

/-- Section 2.14: the valid entries of six, in ascending from-port order, a cost of 0 as 1. -/
theorem test_valid_entries : (validEntries [⟨6, 30, 7, 5, 0, 0, 0⟩, ⟨2, 40, 6, 0, 0, 0, 0⟩, ⟨9, 0, 1, 4, 0, 0, 0⟩,
    ⟨2, 20, 5, 3, 0, 0, 0⟩, ⟨4, 10, 3, 7, 0, 0, 0⟩, ⟨11, 20, 8, 2, 0, 0, 0⟩]).map
      (fun e => (e.fromPort, e.toNode, e.cost))
      = [(2, 40, 1), (4, 10, 7), (6, 30, 5), (11, 20, 2)] := by decide

/-! ### Single steps of the worked sequences -/

/-- Section 10.8: JOIN sets the counter from 0 to 2 and makes the SOLICIT due in class 1. -/
theorem test_join : (did (.join 1) configured).tv.counter = 2 ∧ (did (.join 1) configured).sc.station = .listening ∧
    (did (.join 1) configured).entry 9 = some ⟨.solicit, 1, 1, 0, none, none, false⟩ := by decide +kernel

/-- Section 3.8: port 3 becomes HEARD (40, 7), the link A:3 is added UNVERIFIED, and an ADVERT of class 1 is due. -/
theorem test_portTrace_heard :
    let t := did (.portTrace 1 3 0x00287094) { stationA with tv.counter := 7000 }
    t.tv.counter = 7001 ∧ (linkSet 10 t.tv.links).getLast? = some ⟨⟨10, 3⟩, 40, 7, 1, 800, -200, 0, false⟩ ∧
      (t.entry 8).map (fun e => (e.kind, e.cls)) = some (.advert, 1) := by decide +kernel

/-- Section 3.8: a damaged word completes TRACE_INVALID and leaves the counter. -/
theorem test_portTrace_damaged :
    let t := did (.portTrace 1 3 0x00287095) stationA
    t.tv.counter = 8000 ∧ t.clp.completions = [⟨.portTrace, 1, .traceInvalid, .none, false, .trace 3 .dark⟩] := by
  decide +kernel

/-- Section 5.3's second table: from trims 0, UP and DOWN give factor 10,560 and penalties 504, 194 and 175. -/
theorem test_trim : (did (.trim 1 1 9) { stationA with
    pf.profiles := stationA.pf.profiles.set 1 ⟨320, 520, 200, 180, 0, 0⟩ }).clp.completions =
      [⟨.trim, 1, .ok, .none, false, .trim 1 1 (-1) 10560 504 194 175⟩] := by decide +kernel

/-- An echo whose bit `n` is another than the one sent: the bits before it match. -/
def echoOff (frame : List Byte) (n : Nat) : List LineBit :=
  (lineRun frame).take (n - 1) ++ (match (lineRun frame)[n - 1]? with | some .k => [.j] | _ => [.k])

/-- The attempt of section 1.11: an ANNOUNCE of 60 bytes that started at t = 24. -/
def attempt24 : Attempt := ⟨1, .announce, frameBytes .announce 10 (List.replicate 49 0), 24⟩

/-- Section 1.11: thirty bits into an attempt a mismatch is met: the abort delimiter goes out up to t = 62, 5 bytes are
charged and 64 bit times of backoff are drawn. -/
theorem test_collision :
    let t := did (.collision (echoOff attempt24.frame 30)) { stationH with
      now := 24
      lac.budget := 100
      lac.attempt := some attempt24
      lac.sending := some ⟨24, attempt24.frame, none⟩ }
    t.lac.budget = 95 ∧ t.lac.lfsr = 5 ∧ t.now = 62 ∧ (t.entry 1).map Entry.backoffEnd = some (some 126) ∧
      (List.range 10).map (fun k => t.lineOut (54 + k)) =
        [some .j, some .j, some .j, some .j, some .k, some .k, some .k, some .k, none, none] := by
  decide +kernel

/-- R11: the echo lasts until receive activity falls, past the end of the attempt: a SOLICIT that the same activity
delivers is not dispatched; one in the next activity is. -/
theorem test_echo_outlasts_attempt :
    let t := did (.collision [.k]) { stationH with
      lac.attempt := some ⟨1, .announce, frameBytes .announce 10 [], 0⟩
      lac.echo := true }
    t.lac.attempt = none ∧ (did (.solicitReceived 20 []) t).entry 8 = none ∧
      ((did (.solicitReceived 20 []) (did (.receiveActivityRise 20) (did (.receiveActivityFall 1) t))).entry 8).map
        Entry.kind = some .advert := by decide +kernel

/-- The start of `attempt24`, the line quiet. -/
def silent : State :=
  { quiet stationH with
    now := 24
    lac.budget := 100
    lac.attempt := some attempt24
    lac.sending := some ⟨24, attempt24.frame, none⟩ }

/-- R11: activity that rises after the 12 bit times, while the abort delimiter goes out, is the echo, and the attempt is
lost all the same: 20 bit times and 3 bytes. What the same activity delivers afterwards is not dispatched. -/
theorem test_late_rise :
    let t := did .echoLost (did (.receiveActivityRise 15) silent)
    (List.range 10).map (fun k => (silent.elapse 12).lineOut (35 + k)) =
        (lineRun attempt24.frame)[11]? :: abortDelimiter.map some ++ [none] ∧
      t.lac.attempt = none ∧ t.now = 44 ∧ t.lac.budget = 97 ∧ (t.entry 1).map Entry.attempts = some 1 ∧
      (did (.solicitReceived 20 []) t).entry 8 = none ∧
      (did (.receiveActivityRise 19) silent).lac.echo = true ∧ (did (.receiveActivityRise 20) silent).lac.echo = false ∧
      (did .echoLost (did (.receiveActivityRise 20) silent)).lac.attempt = none := by decide +kernel

/-- R11: an echo that falls after 10 bit times; activity that rises in the abort delimiter is the echo again. -/
theorem test_early_fall :
    let fallen := did (.receiveActivityFall 6) (did (.receiveActivityRise 4) silent)
    let t := did .echoLost (did (.receiveActivityRise 3) fallen)
    fallen.now = 34 ∧ (List.range 9).map (fun k => fallen.lineOut (34 + k)) = abortDelimiter.map some ++ [none] ∧
      t.lac.attempt = none ∧ t.now = 42 ∧ t.lac.budget = 97 ∧ (did (.solicitReceived 20 []) t).entry 8 = none ∧
      ((did (.solicitReceived 20 []) (did (.receiveActivityRise 20) (did (.receiveActivityFall 1) t))).entry 8).map
        Entry.kind = some .advert := by decide +kernel

/-- R184, R185: noise and a lost byte, then a SOLICIT of station B in the line code, answered from its line bits. -/
theorem test_assembler :
    let line := [.data true, .k, .k, .j, .j, .data false, .j, .k, .data true, .data false]
      ++ (lineRun (frameBytes .solicit 20 [])).take 70 ++ lineRun (frameBytes .solicit 20 [])
    (Assembler.waiting.ended line).map (fun x => (x.1.length, x.2)) = [(62, .startDelimiter), (56, .endDelimiter)] ∧
      ((did (.frameDropped line []) stationA).entry 8).map (fun e => (e.kind, e.cls)) = some (.advert, 2) := by
  decide +kernel

/-- Section 2.13: the four judgements of B's sequence numbers at a stored 65530, 65530, 3 and 3. -/
theorem test_advert_judgement :
    let advert := fun (q : BitVec 16) => (Advert.bytes ⟨q, false, false, true, 1, [⟨1, 40, 4, 12, 900, 1500, 0⟩]⟩)
    let at3 := { stationA with
      tv.nodes := stationA.tv.nodes.map (fun r => if r.id = 20 then { r with sequence := 3 } else r) }
    (did (.advertReceived 20 (advert 65530)) stationA).tv.counter = 8000 ∧
    (did (.advertReceived 20 (advert 3)) stationA).tv.counter = 8002 ∧
    (did (.advertReceived 20 (advert 32771)) at3).tv.counter = 8000 ∧
    (did (.advertReceived 20 (advert 32770)) at3).tv.counter = 8002 := by decide +kernel

/-- Section 2.15: at an RI tick B's record reaches age 10: B goes with its links and its hold, which adds 2. -/
theorem test_riTick_purge :
    let t := did .riTick { stationH with
      tv.nodes := stationA.tv.nodes.map (fun r => if r.id = 20 then { r with age := 9 } else { r with age := 0 })
      tv.viewIncomplete := true
      tv.counter := 5000 }
    t.tv.counter = 5002 ∧ t.tv.nodes.map NodeRecord.id = [10, 30, 40] ∧ t.tv.viewIncomplete = false ∧
      t.clp.marks.viewIncomplete = true ∧
      t.tv.links.map LinkRecord.verified = [false, true, true, true, false, true] := by
  decide +kernel

/-- The hold (10, 5) of section 6.9, announced, alone in slot 0. -/
def announced5 : State :=
  { stationA with
    hu.holds := [⟨10, 5, true, 1, false, false, 0, 2, [⟨10, 2⟩, ⟨30, 1⟩], none⟩]
    hu.slots := stationA.hu.slots.set 0 (.live (.announced 15000 none) 5 31)
    tv.counter := 8001 }

/-- Section 6.9, order 1: C's ANNOUNCE outranks the hold in its contest, which is LOST. -/
theorem test_announce_lost :
    let t := did (.announceReceived 30 (HoldBody.bytes ⟨2, 2, false, 1, 2, [⟨30, 1⟩]⟩)) announced5
    t.slot 0 = .ended 5 31 .lost ∧ t.tv.counter = 8003 ∧
      t.hu.holds = [⟨30, 2, false, 2, false, false, 1, 2, [⟨30, 1⟩], some 31020000⟩] := by decide +kernel

/-- Section 6.9, order 2: the contest ends first, the hold is HELD and established. -/
theorem test_contest : (did (.contestExpiry 0) announced5).slot 0 = .live .held 5 31 ∧
    (did (.contestExpiry 0) announced5).tv.counter = 8002 ∧
    (did (.contestExpiry 0) announced5).hu.holds.map Hold.lifetime = [some 30000000] := by decide +kernel

/-- Section 6.9, order 2: C's ANNOUNCE is discarded, and the HELD hold objects in class 0. -/
theorem test_announce_objected :
    let t := did (.announceReceived 30 (HoldBody.bytes ⟨2, 2, false, 1, 2, [⟨30, 1⟩]⟩)) stationH
    t.hu = stationH.hu ∧ t.tv = stationH.tv ∧ (t.entry 0).map (fun e => (e.kind, e.cls)) = some (.object, 0) := by
  decide +kernel

/-- Section 6.10: (10, 5), committed, with its window lit on (30, 1), ends SUPERSEDED when A's host marks its slots used
on port 2, with no frame due in its place. -/
theorem test_superseded :
    let t := did (.portSet 1 2 1 8 2000 1600 3) { stationA with
      tv.links := stationA.tv.links.map (fun l => if l.key = ⟨30, 1⟩ then { l with used := 3 } else l)
      hu.holds := [⟨10, 5, true, 1, true, true, 0, 2, [⟨10, 2⟩, ⟨30, 1⟩], some 600000000⟩]
      hu.slots := stationA.hu.slots.set 0 (.live .committed 5 31) }
    t.slot 0 = .ended 5 31 .superseded ∧ t.hu.holds = [] ∧ t.tv.counter = 8002 ∧ t.entry 0 = none := by
  decide +kernel

/-- The request of section 7.8. -/
def request31 : PathRequest :=
  ⟨31, 10, 40, 2, .first, 0, 63, 6000, 0, 3000, 4, 1, true, [], [], false⟩

/-- The search of section 7.8 after its step 2: A is settled. -/
def searchA : Context :=
  { request := request31, abortTag := none, snapshot := stationA.pf.profiles, startCounter := 8000, window := 0
    passes := 1, frontier := [⟨20, 10, 1805, 1700, 1, some ⟨10, 1⟩⟩, ⟨30, 8, 2550, 1600, 1, some ⟨10, 2⟩⟩]
    tree := [⟨10, 0, 150, 0, 0, none⟩], bestArrival := none, passPruned := false, anyPruned := false
    bestResult := none, phase := .selecting }

/-- Section 7.8, step 3: C is least and settled, and gives the best arrival (17, 4208, 1300, 2). -/
theorem test_selection : (did .selectionStep { stationA with psu := ⟨[request31], some searchA⟩ }).psu.context =
    some { searchA with
      frontier := [⟨20, 10, 1805, 1700, 1, some ⟨10, 1⟩⟩]
      tree := [⟨10, 0, 150, 0, 0, none⟩, ⟨30, 8, 2550, 1600, 1, some ⟨10, 2⟩⟩]
      bestArrival := some ⟨40, 17, 4208, 1300, 2, some ⟨30, 1⟩⟩ } := by decide +kernel

/-- The search of section 7.8 with its result. -/
def found31 : Context :=
  { searchA with
    phase := .completing
    bestResult := some ⟨0, [(⟨10, 2⟩, 30), (⟨30, 1⟩, 40)], 17, 4208, 1300, 2, false⟩ }

/-- Section 7.8: the completion of tag 31, FOUND with hold 5 in slot 0. -/
theorem test_search_found :
    let t := did .searchCompletion { stationA with
      hu.lastNumber := 4
      psu := ⟨[request31], some found31⟩ }
    t.clp.completions = [⟨.path, 31, .found, .none, false, .result ⟨false, false, false, false, false, true⟩ 1
      ⟨5, 0, 2, 17, 4208, 1300, 2, 365, 1300, [(⟨10, 2⟩, 30), (⟨30, 1⟩, 40)]⟩⟩] ∧
      t.slot 0 = .live (.pending none) 5 31 ∧ t.tv.counter = 8001 := by decide +kernel

/-- Section 7.11: ABORT of a queued request, and of the request in flight, which waits for its next step. -/
theorem test_abort :
    let s := { stationA with
      psu := ⟨[{ request31 with tag := 50 }, { request31 with tag := 51 }, { request31 with tag := 50 }],
        some { searchA with request := { request31 with tag := 50 }, passes := 7 }⟩
      clp.reservations := 3 }
    (did (.abort 60 51) s).clp.completions = [⟨.path, 51, .aborted, .none, false, .aborted 0⟩,
      ⟨.abort, 60, .ok, .none, false, .none⟩] ∧
    (did .searchAbortEnd (did (.abort 61 50) s)).clp.completions = [⟨.path, 50, .aborted, .none, false, .aborted 7⟩,
      ⟨.abort, 61, .ok, .none, false, .none⟩] := by decide +kernel

/-- A completion queue of `n` entries. -/
def queued (n : Nat) : List Completion :=
  (List.range n).map (fun i => ⟨.poll, BitVec.ofNat 16 i, .ok, .none, false, .ended []⟩)

/-- Section 9.6: with 14 entries and 2 reservations a PATH is BUSY; a FETCH cut after 3 bytes leaves its entry. -/
theorem test_full_queue :
    let s := { stationA with clp.completions := queued 14, clp.reservations := 2 }
    (∀ b, (did (.path 32 b) s).clp.port = .answering [0x62] ∧ (did (.path 32 b) s).psu = s.psu) ∧
      (did (.fetch 3) s).clp.completions = queued 14 ∧ (did (.fetch 99) s).clp.completions.length = 13 :=
  ⟨fun _ => ⟨rfl, rfl⟩, by decide +kernel⟩

/-- Section 9.7: STATUS reports the ISOLATED mark set and the condition clear, and clears the mark. -/
theorem test_status :
    let t := did (.status 1) { stationA with clp.marks.isolated := true }
    t.clp.marks = Conditions.none ∧ t.clp.completions.map (fun c =>
      match c.items with
      | .status v => (v.marks.isolated, v.conditions.isolated)
      | _ => (false, true)) = [(true, false)] := by decide +kernel

/-! ### The hypotheses of the statements: states that meet the invariants -/

/-- Station A in LEAVING, its withdraw ADVERT on the line for the eighth time. -/
def stationL : State :=
  { stationA with
    lac.due := stationA.lac.due.set 8 (some ⟨.withdraw, 0, 0, 7, none, none, false⟩)
    lac.attempt := some ⟨8, .withdraw, frameBytes .withdraw 10 [], 0⟩
    clp.reservations := 1
    sc := ⟨.leaving, some identityA, some timingA, false, some 5, 2, none, some 70⟩ }

/-- Station A in MUTED. -/
def stationM : State := { stationA with sc := ⟨.muted, some identityA, some timingA, true, some 5, 2, none, none⟩ }

/-- Station A in LISTENING, one tick before ANNOUNCING. -/
def listeningA : State :=
  { stationA with
    ads := ⟨0, 412, 2, 0, false, .clear, false⟩
    clp.reservations := 1
    sc := ⟨.listening, some identityA, some timingA, false, some 5, 1, some 60, none⟩ }

/-- Station A in ANNOUNCING, one ADVERT before OPERATING. -/
def announcingA : State :=
  { stationA with
    ads := ⟨0, 412, 1, 1, false, .clear, true⟩
    clp.reservations := 1
    sc := ⟨.announcing, some identityA, some timingA, false, some 5, 2, some 60, none⟩ }

theorem stationH_agree : stationH.Agree := by constructor <;> decide +kernel
theorem stationL_agree : stationL.Agree := by constructor <;> decide +kernel
theorem stationM_agree : stationM.Agree := by constructor <;> decide +kernel

theorem stationH_ranges : stationH.Ranges where
  identity := by intro v h; cases h; decide
  timing := by intro v h; cases h; decide
  listen := by decide
  listening := by decide
  ports := by decide +kernel
  profiles := by decide +kernel
  debt := by decide
  fresh := by decide
  announced := by decide
  announcing := by decide
  unannounced := by decide
  budget := by decide

theorem stationA_ranges : stationA.Ranges :=
  ⟨stationH_ranges.identity, stationH_ranges.timing, stationH_ranges.listen, stationH_ranges.listening,
    stationH_ranges.ports, stationH_ranges.profiles, stationH_ranges.debt, stationH_ranges.fresh,
    stationH_ranges.announced, stationH_ranges.announcing, stationH_ranges.unannounced, stationH_ranges.budget⟩

theorem stationA_viewForm : stationA.ViewForm := by
  constructor
  · unfold Table.Sorted; decide +kernel
  · unfold Table.Sorted; decide +kernel
  all_goals decide +kernel

theorem stationH_viewForm : stationH.ViewForm := stationA_viewForm.of_eq rfl rfl
theorem stationH_verified : stationH.Verified := by decide +kernel

theorem stationH_holdsOk : stationH.HoldsOk := by
  constructor
  · unfold Table.Sorted; decide +kernel
  all_goals decide +kernel

theorem stationH_blocksOk : stationH.BlocksOk := by
  constructor
  · unfold Table.Sorted; decide +kernel
  all_goals decide +kernel

theorem stationH_dueOk : stationH.DueOk where
  entries := by decide +kernel
  attempt := by intro a h; cases h

theorem stationA_searching : { stationA with psu := ⟨[request31], some searchA⟩ }.SearchOk := by
  intro c h
  cases h
  constructor
  · unfold Table.Sorted; decide
  · decide
  · decide
  · decide
  · decide
  · intro l h; cases h

/-- Each way in which an attempt fails: the first bit of the echo differs, no echo, or an echo lost on the way. -/
theorem fails_by_mismatch (s : State) (a : Attempt) : s.failsBy a (.collision [.k]) (s.attemptAborted a 1) :=
  .inl ⟨_, 1, rfl, rfl, rfl⟩

theorem fails_by_silence (s : State) (a : Attempt) (whole : s.lac.sending.bind Transmission.cut = none)
    (h : s.lac.echo = false) : s.failsBy a .echoLost (s.attemptAborted a 12) :=
  .inr ⟨12, rfl, rfl, .inr ⟨whole, h, rfl⟩⟩

theorem fails_by_loss (s : State) (a : Attempt) (h : s.lac.sending.bind Transmission.cut = some 9) :
    s.failsBy a .echoLost (s.attemptAborted a 9) := .inr ⟨9, rfl, rfl, .inl h⟩

/-- The state with the run broken off after nine bit times, as a fall of receive activity leaves it. -/
def broken (s : State) : State :=
  { s with lac.sending := some ⟨0, [], some 9⟩, lac.activity := false, lac.echo := false }

/-! ### Witnesses: for each statement with hypotheses, values that meet them -/

/-- While the reset line is held. -/
def held : State := { stationA with resetHeld := true }

/-- A configuration not yet begun, with an identity alone. -/
def identified : State :=
  { State.reset with sc := ⟨.identified, some identityA, none, false, none, 0, none, none⟩ }

/-- The body of the request of section 7.8. -/
def bodyA : PathBody :=
  ⟨10, 40, 2, 0, 0, 0, 6000, 0, 3000, 4, 1, 1, 0, #v[0, 0, 0, 0], 0, #v[(0, 0), (0, 0), (0, 0), (0, 0)]⟩

theorem witness_StepRunsFront : stationH.pending = .poll 9 :: [.riTick] := rfl

theorem witness_EmptyQueuePassesABitTime :
    (let s := { stationH with pending := [] };
      s.pending = [] ∧ s.resetHeld = false ∧ s.HoldsOk ∧
      (∃ h ∈ s.hu.holds, h.own = true ∧ ∃ i commit tag, s.slot i = .live (.committing commit) h.number tag) ∧
      ∃ h ∈ s.hu.holds, h.own = false) ∧
    -- an attempt without an echo, and one broken off, each one bit time before its end
    (silent.elapse 19).lineEvents = [] ∧ (silent.elapse 20).lineEvents = [.echoLost] ∧
    (silent.elapse 20).lac.attempt = some attempt24 ∧ silent.lac.sending.bind Transmission.cut = none ∧
    held.pending = [] ∧ held.resetHeld = true :=
  ⟨⟨rfl, rfl, stationH_holdsOk.of_eq rfl rfl rfl, ⟨_, .tail _ (.tail _ (.tail _ (.head _))), rfl, 3, 65, 34, rfl⟩,
    by decide⟩, by decide +kernel, by decide +kernel, rfl, rfl, rfl, rfl⟩

theorem witness_ResetLineClears : held.resetHeld = true := rfl

theorem witness_HeldPartTakesNothing : held.resetHeld = true ∧ Instr.poll 1 ≠ .resetLineAssert ∧
    Instr.poll 1 ≠ .resetLineRelease := by decide

theorem witness_BusyLeavesNoTrace :
    (let s := { stationA with clp.completions := queued 14, clp.reservations := 2 };
      s.portOpen ∧ requestOf (.poll 1) = true ∧ 16 ≤ s.clp.completions.length + s.clp.reservations) ∧
    (let s := { stationA with psu.queue := List.replicate 4 request31 };
      s.portOpen ∧ requestOf (.path 1 bodyA) = true ∧ (∃ tag b, Instr.path 1 bodyA = .path tag b) ∧
        4 ≤ s.psu.queue.length) :=
  ⟨by decide, by decide, rfl, ⟨1, bodyA, rfl⟩, by decide⟩

theorem witness_MalformedLeavesNoTrace : (stationA.portOpen ∧ headerMalformed 0x13 0 1 = true) ∧
    -- QUERY at each length that section 11.4 permits, and a kind that is no request kind at one of them
    (headerMalformed 0x60 0 3 = false ∧ headerMalformed 0x60 1 4 = false ∧ headerMalformed 0x60 2 1 = false ∧
      headerMalformed 0x60 3 1 = false ∧ headerMalformed 0x60 3 3 = false ∧ headerMalformed 0x00 0 3 = true) := by
  decide

theorem witness_FetchSendsTheOldest :
    (let s := { stationA with clp.completions := queued 2 };
      s.portOpen ∧ ∃ c rest, s.clp.completions = c :: rest ∧ c.bytes.length ≤ c.bytes.length ∧
        c.bytes.length - 1 < c.bytes.length) ∧
    (stationA.portOpen ∧ stationA.clp.completions = [] ∧ stationA.resetHeld = false) ∧
    (let s := { stationA with clp.port := .answering [0x61] };
      s.resetHeld = false ∧ s.clp.port ≠ .idle ∧ requestOf (.poll 1) = true ∧ s.clp.port = .answering [0x61]) ∧
    stationA.clp.port = .idle :=
  ⟨⟨by decide, _, _, rfl, le_refl _, by decide⟩, by decide, by decide, rfl⟩

theorem witness_NotTakenCompletesAtOnce :
    (configured.takes ∧ ((∃ tag b, Instr.path 1 bodyA = .path tag b) → configured.psu.queue.length < 4) ∧
      notTaken configured.sc.station (.path 1 bodyA) = some (.path, 1, .notJoined)) ∧
    -- any other request, with the path queue full
    (let s := { stationA with psu.queue := List.replicate 4 request31 };
      s.takes ∧ ((∃ tag b, Instr.join 1 = .path tag b) → s.psu.queue.length < 4) ∧
        notTaken s.sc.station (.join 1) = some (.join, 1, .sequence)) :=
  ⟨⟨by decide, fun _ => by decide, rfl⟩, by decide, nofun, rfl⟩

theorem witness_EveryStepKeepsAccounts : stationH.Agree ∧ stationH.Accounts ∧ ∃ t, step stationH = .next t :=
  ⟨stationH_agree, by decide, _, rfl⟩

theorem witness_StatusReportsAndClearsMarks : stationA.takes ∧ stationA.sc.station.joined = true ∧ configured.takes ∧
    configured.sc.station.joined = false := by decide

theorem witness_ConfigurationIsStored :
    State.reset.takes ∧ State.reset.sc.station = .unconfigured ∧
    ((1 : BitVec 16) ≠ 0#16 ∧ (1 : BitVec 16) ≠ 0xFFFF#16) ∧ (0xFFFE#16 ≠ 0#16 ∧ 0xFFFE#16 ≠ 0xFFFF#16) ∧
    (0#16 = 0#16 ∨ 0#16 = 0xFFFF#16) ∧ (0xFFFF#16 = 0#16 ∨ 0xFFFF#16 = 0xFFFF#16) ∧
    identified.takes ∧ identified.sc.station = .identified ∧
    (⟨1, 16, 10, 255, 1, 65535, 1, 255⟩ : Timing) =
      ⟨max 1 (min 255 (0#16).toNat), max 1 (min 16 (0xFFFF#16).toNat), max 10 (min 65535 (9#16).toNat),
        max 1 (min 255 (256#16).toNat), max 1 (min 255 (0#16).toNat), max 1 (min 65535 (0xFFFF#16).toNat),
        max 1 (min 65535 (0#16).toNat), max 16 (min 255 (0x100#16).toNat)⟩ := by decide

theorem witness_ProfilesAreWrittenAndTrimmed :
    State.reset.takes ∧ State.reset.sc.station = .unconfigured ∧ stationA.sc.station ≠ .configured ∧
    configured.takes ∧ configured.sc.station = .configured ∧ 15 < (16#16).toNat ∧ (15#16).toNat < 16 ∧
    stationA.takes ∧ stationA.sc.station ≠ .unconfigured ∧ stationA.sc.station ≠ .identified ∧
    (15 < (16#8).toNat ∧ (3#8).toNat % 4 = 3 ∧ (12#8).toNat / 4 % 4 = 3) ∧
    ((15#8).toNat < 16 ∧ (6#8).toNat % 4 ≠ 3 ∧ (6#8).toNat / 4 % 4 ≠ 3 ∧ stationA.pf.profiles[(15#8).toNat].inRange) ∧
    (let p := stationA.pf.profiles[(1#8).toNat];
      p.inRange ∧ (⟨320, 520, 200, 180, 1, -3⟩ : Profile) = { p with
        noiseTrim := if (6#8).toNat % 4 = 1 then min 7 (p.noiseTrim + 1)
          else if (6#8).toNat % 4 = 2 then max (-8) (p.noiseTrim - 1) else p.noiseTrim
        penaltyTrim := if (6#8).toNat / 4 % 4 = 1 then min 7 (p.penaltyTrim + 1)
          else if (6#8).toNat / 4 % 4 = 2 then max (-8) (p.penaltyTrim - 1) else p.penaltyTrim }) := by decide

theorem witness_FiguresAreExact :
    (65535 ≤ 65535 ∧ (-8 : Int) ≤ -8 ∧ (-8 : Int) ≤ 7 ∧ (-8 : Int) < 0 ∧ 65535 ≠ 0) ∧
    (⟨1, 0, 0, 0, -8, -8⟩ : Profile).inRange ∧ (⟨1023, 65535, 65535, 65535, 7, 7⟩ : Profile).inRange ∧
    (⟨256, 0, 0, 0, 0, 0⟩ : Profile).factor = 8192 ∧ (1048575 ≤ 1048575 ∧ 1048574 ≤ 1048575 ∧ 1048574 ≠ 1048575) ∧
    margin 6000 4208 ≠ 65535 ∧ ((0 : Int) ≤ 1300 ∧ (1300 : Int) ≤ 3000 ∧ (8388607 : Int) - -8388607 ≤ 16777214) := by
  decide

theorem witness_JoinBeginsMembership : configured.takes ∧ configured.sc.station = .configured ∧
    configured.sc.identity = some identityA ∧ configured.sc.timing = some timingA ∧ configured.tv.nodes = [] ∧
    configured.tv.links = [] ∧ configured.entry 9 = none := by decide

/-- Station H with an ADVERT in place 8, on the line or not. -/
def advertising (onLine : Bool) (s : State) : State :=
  { s with
    lac.due := s.lac.due.set 8 (due .advert 2)
    lac.attempt := if onLine then some ⟨8, .advert, List.replicate 30 0, 0⟩ else none }

theorem advertising_advertsOnly (b : Bool) (s : State) : (advertising b s).advertsOnly := by
  intro e h
  have : (advertising b s).entry 8 = due .advert 2 := by simp [advertising, State.entry]
  rw [this] at h
  cases h
  exact ⟨rfl, nofun⟩

/-- Station H with the entry of a place on the line, its echo heard. -/
def onLineH (p : Fin 10) (e : Entry) : State :=
  { stationH with
    lac.due := stationH.lac.due.set p (some e)
    lac.attempt := some ⟨p, e.kind, [], 0⟩
    lac.echo := true }

theorem witness_LeaveBegins :
    (stationH.takes ∧ stationH.HoldsOk ∧ stationH.sc.station = .operating) ∧ stationH.onLine 9 = false ∧
    stationH.entry 8 = none ∧
    (∀ b, (advertising b stationH).takes ∧ (advertising b stationH).HoldsOk ∧
      (∃ e, (advertising b stationH).entry 8 = some e ∧ e.kind = .advert) ∧ (advertising b stationH).onLine 8 = b) ∧
    -- the SOLICIT on the line, a follow-on recorded
    (let s := onLineH 9 ⟨.solicit, 1, 0, 0, none, some (.solicit, 1), false⟩;
      s.takes ∧ s.HoldsOk ∧ s.sc.station = .operating ∧ (s.entry 9).isSome = true ∧ s.onLine 9 = true) :=
  ⟨⟨by decide, stationH_holdsOk, rfl⟩, by decide, by decide, fun b =>
    ⟨by cases b <;> decide, stationH_holdsOk.of_eq rfl rfl rfl,
      ⟨⟨.advert, 2, 0, 0, none, none, false⟩, by cases b <;> rfl, rfl⟩, by cases b <;> rfl⟩,
    by decide, stationH_holdsOk.of_eq rfl rfl rfl, rfl, rfl, rfl⟩

theorem witness_LeaveFromMutedCompletes : stationM.takes ∧ stationM.Agree ∧ stationM.sc.station = .muted :=
  ⟨by decide, stationM_agree, rfl⟩

theorem witness_WithdrawEndsLeave : ∃ a e, stationL.resetHeld = false ∧ stationL.sc.station = .leaving ∧
    stationL.sc.muted = false ∧ stationL.sc.leaveWaiting = some 70 ∧ stationL.lac.attempt = some a ∧ a.place = 8 ∧
    a.kind = .withdraw ∧ stationL.entry 8 = some e ∧ e.followOn = none ∧ e.withdrawn = false ∧ e.attempts = 7 ∧
    succeedsBy a .attemptSucceeded ∧
    stationL.failsBy a (.collision [.k]) (stationL.attemptAborted a 1) :=
  ⟨_, _, rfl, rfl, rfl, rfl, rfl, rfl, rfl, rfl, rfl, rfl, rfl, .inl rfl, fails_by_mismatch _ _⟩

/-- Station A in ANNOUNCING with its second ADVERT on the line, the echo heard. -/
def secondAdvert : State :=
  { announcingA with
    now := 40
    lac.budget := 100
    lac.echo := true
    lac.due := announcingA.lac.due.set 8 (due .advert 1)
    lac.attempt := some ⟨8, .advert, frameBytes .advert 10 (List.replicate 12 0), 0⟩
    lac.sending := some ⟨0, frameBytes .advert 10 (List.replicate 12 0), none⟩ }

/-- R178: the report and SENT for the second ADVERT, taken together. In either order the station ends MUTED; the report
taken first cuts the attempt, its abort delimiter goes out, 6 bytes are charged, and JOIN completes DUPLICATE_ID. -/
theorem test_duplicate_race :
    let first := did .duplicateIdentity secondAdvert
    let last := did .duplicateIdentity (did .attemptSucceeded secondAdvert)
    first.sc.station = .muted ∧ first.lac.attempt = none ∧ first.lac.budget = 94 ∧
      (List.range 9).map (fun k => first.lineOut (40 + k)) = abortDelimiter.map some ++ [none] ∧
      first.clp.completions = [⟨.join, 60, .duplicateId, .none, false, .none⟩] ∧
      (did .attemptSucceeded first).sc = first.sc ∧
      last.sc.station = .muted ∧ last.clp.completions = [⟨.join, 60, .ok, .none, false, .none⟩] := by decide +kernel

theorem witness_DuplicateIdentityMutes :
    (stationH.resetHeld = false ∧ stationH.HoldsOk ∧ stationH.sc.muted = false ∧ stationH.sc.station = .operating ∧
      stationH.hu.slots.toList.countP Slot.isLive = 5) ∧
    -- with an attempt of its own on the line, its echo heard
    (let s := onLineH 9 ⟨.solicit, 1, 0, 0, none, none, false⟩;
      s.resetHeld = false ∧ s.HoldsOk ∧ s.sc.muted = false ∧ s.sc.station = .operating ∧ s.lac.attempt.isSome = true ∧
        s.lac.echo = true) ∧
    (stationL.resetHeld = false ∧ stationL.Agree ∧ stationL.sc.station = .leaving ∧
      stationL.sc.leaveWaiting = some 70) ∧
    (stationM.resetHeld = false ∧ stationM.sc.station = .muted) ∧
    -- the second ADVERT of ANNOUNCING on the line
    (secondAdvert.resetHeld = false ∧ secondAdvert.sc.station = .announcing ∧ secondAdvert.ads.announceCount = 1 ∧
      ∃ a e, secondAdvert.lac.attempt = some a ∧ a.place = 8 ∧ a.kind = .advert ∧ secondAdvert.entry 8 = some e ∧
        succeedsBy a .attemptSucceeded) :=
  ⟨⟨rfl, stationH_holdsOk, rfl, rfl, rfl⟩, ⟨rfl, stationH_holdsOk.of_eq rfl rfl rfl, rfl, rfl, rfl, rfl⟩,
    ⟨rfl, stationL_agree, rfl, rfl⟩, ⟨rfl, rfl⟩, rfl, rfl, rfl, _, _, rfl, rfl, rfl, rfl, .inl rfl⟩

theorem witness_EveryStepKeepsAgreement : stationH.Agree ∧ ∃ t, step stationH = .next t := ⟨stationH_agree, _, rfl⟩

theorem witness_EveryStepKeepsRanges : stationH.Agree ∧ stationH.Ranges ∧ ∃ t, step stationH = .next t :=
  ⟨stationH_agree, stationH_ranges, _, rfl⟩

/-- Station H, B's record at age 9, with VIEW_INCOMPLETE and HOLDS_OVERFLOW set. -/
def aging : State :=
  { stationH with
    tv.nodes := stationH.tv.nodes.map (fun r => if r.id = 20 then { r with age := 9 } else { r with age := 0 })
    tv.viewIncomplete := true
    hu.overflow := true }

theorem aging_viewForm : aging.ViewForm := by
  constructor
  · unfold Table.Sorted; decide +kernel
  · unfold Table.Sorted; decide +kernel
  all_goals decide +kernel

theorem aging_holdsOk : aging.HoldsOk := by
  constructor
  · unfold Table.Sorted; decide +kernel
  all_goals decide +kernel

/-- R35, R107: the tick purges B with its peer hold, and both conditions clear with their marks. -/
theorem test_riTick_clears : (did .riTick aging).hu.overflow = false ∧ (did .riTick aging).clp.marks.overflow = true ∧
    (did .riTick aging).hu.holds.map Hold.origin = [10, 10, 10, 10, 10, 40] := by decide +kernel

theorem witness_RiTickReachesEveryBlock :
    (State.reset.resetHeld = false ∧ State.reset.sc.riTimer = none) ∧
    (stationH.resetHeld = false ∧ stationH.ViewForm ∧ stationH.sc.riTimer = some 5 ∧ stationH.lac.isolated = false) ∧
    (let s := { stationH with lac.isolated := true };
      s.resetHeld = false ∧ s.ViewForm ∧ s.sc.riTimer = some 5 ∧ s.lac.isolated = true) ∧
    -- a record that reaches age 10, with a peer hold
    (aging.resetHeld = false ∧ aging.sc.riTimer = some 5 ∧ aging.lac.isolated = false ∧ aging.ViewForm ∧
      aging.HoldsOk ∧ (∃ r ∈ aging.tv.nodes, r.own = false ∧ 9 ≤ r.age ∧
        ∃ h ∈ aging.hu.holds, h.own = false ∧ h.origin = r.id) ∧
      aging.tv.viewIncomplete = true ∧ aging.hu.overflow = true) ∧
    -- the due check: no entry and one owed, none owed, an entry to be raised, and the states in which there is none
    (stationH.sc.station = .operating ∧ stationH.ads.entryPresent = false ∧ stationH.advertsOnly ∧
      owedClass .operating 2 .clear 1 = some 2 ∧ owedClass .operating 2 .clear 0 = none) ∧
    (let s := { advertising true stationH with ads.entryPresent := true, ads.debt := 7 };
      s.sc.riTimer = some 5 ∧ s.ads.entryPresent = true ∧ min 8 (s.ads.debt + 1) = 8 ∧ (s.entry 8).isSome = true) ∧
    (listeningA.sc.riTimer = some 5 ∧ listeningA.sc.listen + 1 = listeningA.timing.joinListen) ∧
    (stationM.sc.riTimer = some 5 ∧ stationM.sc.station ≠ .announcing ∧ stationM.sc.station ≠ .operating) :=
  ⟨⟨rfl, rfl⟩, ⟨rfl, stationH_viewForm, rfl, rfl⟩, ⟨rfl, stationH_viewForm.of_eq rfl rfl, rfl, rfl⟩,
    ⟨rfl, rfl, rfl, aging_viewForm, aging_holdsOk, by decide, rfl, rfl⟩,
    ⟨rfl, rfl, nofun, by decide⟩, by decide, by decide, by decide⟩

theorem witness_PortRequestsAreHeld :
    (stationA.takes ∧ stationA.sc.station ≠ .unconfigured ∧ stationA.portCount ≤ (4#8).toNat ∧ 15 < (16#8).toNat) ∧
    (configured.takes ∧ configured.sc.station = .configured ∧ (3#8).toNat < 16 ∧ (3#8).toNat < configured.portCount ∧
      readTraceWord 0x00287094 = some (40, 7) ∧ (40 : Nat) ≠ configured.ownId ∧ readTraceWord 0x00287095 = none) := by
  decide

theorem witness_PortChangeRebuildsOwnLinks :
    stationH.takes ∧ stationH.ViewForm ∧ stationH.Ranges ∧ stationH.HoldsOk ∧ stationH.sc.station.joined = true ∧
    (3#8).toNat < stationH.portCount ∧ readTraceWord 0x00287094 = some (40, 7) ∧
    { stationH.pt.ports[(3#8).toNat] with trace := .heard 40 7 } ≠ stationH.pt.ports[(3#8).toNat] ∧
    { stationH.pt.ports[(3#8).toNat] with trace := .dark } = stationH.pt.ports[(3#8).toNat] ∧
    stationH.sc.station = .operating ∧ stationH.ads.postDropWait = false ∧ stationH.advertsOnly ∧
    (let s := { stationH with ads.postDropWait := true };
      s.takes ∧ s.ViewForm ∧ s.Ranges ∧ s.HoldsOk ∧ s.ads.postDropWait = true) ∧
    (∀ b, (advertising b stationH).takes ∧ (advertising b stationH).ViewForm ∧ (advertising b stationH).HoldsOk ∧
      (advertising b stationH).advertsOnly ∧ (advertising b stationH).onLine 8 = b) ∧
    (stationM.takes ∧ stationM.ViewForm ∧ stationM.Ranges ∧ stationM.HoldsOk ∧ stationM.sc.station.joined = true ∧
      (3#8).toNat < stationM.portCount ∧ stationM.sc.station = .muted) :=
  ⟨by decide, stationH_viewForm, stationH_ranges, stationH_holdsOk, by decide, by decide, by decide, by decide,
    by decide, rfl, rfl, nofun,
    ⟨by decide, stationH_viewForm.of_eq rfl rfl,
      ⟨stationH_ranges.identity, stationH_ranges.timing, stationH_ranges.listen, stationH_ranges.listening,
        stationH_ranges.ports, stationH_ranges.profiles, stationH_ranges.debt, stationH_ranges.fresh,
        stationH_ranges.announced, stationH_ranges.announcing, stationH_ranges.unannounced, stationH_ranges.budget⟩,
      stationH_holdsOk.of_eq rfl rfl rfl, rfl⟩,
    fun b => ⟨by cases b <;> decide, stationH_viewForm.of_eq rfl rfl, stationH_holdsOk.of_eq rfl rfl rfl,
      advertising_advertsOnly b stationH, by cases b <;> rfl⟩,
    by decide,
    by constructor <;> first | decide +kernel | (unfold Table.Sorted; decide +kernel),
    ⟨stationH_ranges.identity, stationH_ranges.timing, stationH_ranges.listen, by decide,
      stationH_ranges.ports, stationH_ranges.profiles, stationH_ranges.debt, stationH_ranges.fresh,
      stationH_ranges.announced, by decide, by decide, stationH_ranges.budget⟩,
    by constructor <;> first | decide +kernel | (unfold Table.Sorted; decide +kernel), by decide, by decide, rfl⟩

theorem witness_PortQueryDerivesAdjacency :
    stationA.takes ∧ stationA.sc.station.joined = true ∧ stationA.ViewForm ∧ stationA.Ranges ∧
    stationA.portCount ≤ (4#8).toNat ∧ ((3#8).toNat < 16 ∧ (3#8).toNat < stationA.portCount) ∧
    (stationA.pt.ports[(3#8).toNat].trace = .dark ∧ (none : Option Adjacency) = none ∧ (none : Option Bool) = none) ∧
    (∀ node far, stationA.pt.ports[(1#8).toNat].trace = .heard node far → (∃ r ∈ stationA.tv.nodes, r.id = node) ∧
      (∃ l ∈ stationA.tv.links, l.key = ⟨node, far⟩ ∧ l.toNode = stationA.ownId ∧ l.toPort = (1#8).toNat) ∧
      stationA.pt.ports[(1#8).toNat].enabled = true ∧
      ∃ l ∈ stationA.tv.links, l.key = ⟨stationA.ownId, (1#8).toNat⟩ ∧ l.verified = true) := by
  refine ⟨by decide, by decide, stationA_viewForm, stationA_ranges, by decide, by decide, by decide, ?_⟩
  intro node far h
  cases h
  decide

theorem witness_QueriesReadTheView :
    (stationA.takes ∧ stationA.sc.station.joined = true ∧ stationA.ViewForm) ∧
    (∃ r ∈ stationA.tv.nodes, r.id = (40#16).toNat ∧ (0#8).getLsbD 0 = false ∧ 40#16 ≠ 0xFFFF#16 ∧ 40#16 ≠ 0#16) ∧
    (∃ r ∈ stationA.tv.nodes, (1#8).getLsbD 0 = true ∧ (0#16).toNat < r.id ∧
      ∀ x ∈ stationA.tv.nodes, (0#16).toNat < x.id → r.id ≤ x.id) ∧
    (∀ r ∈ stationA.tv.nodes, if (1#8).getLsbD 0 then r.id ≤ (0xFFFE#16).toNat else r.id ≠ (0xFFFE#16).toNat) ∧
    (∃ l ∈ stationA.tv.links, l.key = ⟨(40#16).toNat, (5#8).toNat⟩) ∧
    (∃ l ∈ stationA.tv.links, ((10#16).toNat < l.key.node ∨ ((10#16).toNat = l.key.node ∧ (15#8).toNat < l.key.port)) ∧
      ∀ x ∈ stationA.tv.links, ((10#16).toNat < x.key.node ∨ ((10#16).toNat = x.key.node ∧ (15#8).toNat < x.key.port)) →
        (l.key.node < x.key.node ∨ (l.key.node = x.key.node ∧ l.key.port ≤ x.key.port))) ∧
    (∀ l ∈ stationA.tv.links, if (1#8).getLsbD 0 then
        l.key.node < (40#16).toNat ∨ (l.key.node = (40#16).toNat ∧ l.key.port ≤ (15#8).toNat)
      else l.key ≠ ⟨(40#16).toNat, (15#8).toNat⟩) ∧
    (15 < (16#8).toNat ∧ 0xFFFF#16 = 0xFFFF#16 ∧ (0#8).getLsbD 0 = false ∧ 0#16 = 0#16) :=
  ⟨⟨by decide, by decide, stationA_viewForm⟩, by decide, by decide, by decide, by decide, by decide, by decide,
    by decide⟩

theorem witness_GoodFrameEndsIsolation : stationA.lac.isolated = false ∧
    (let s := { stationA with lac.isolated := true };
      s.lac.isolated = true ∧ s.sc.station = .operating ∧ s.ads.postDropWait = false ∧ s.advertsOnly) ∧
    (∀ b, let s := advertising b { stationA with lac.isolated := true };
      s.lac.isolated = true ∧ s.sc.station = .operating ∧ s.ads.postDropWait = false ∧ s.advertsOnly) ∧
    (let s := { stationM with lac.isolated := true }; s.lac.isolated = true ∧ s.sc.station = .muted) :=
  ⟨rfl, ⟨rfl, rfl, rfl, nofun⟩, fun b => ⟨by cases b <;> rfl, by cases b <;> rfl, by cases b <;> rfl,
    advertising_advertsOnly b _⟩, rfl, rfl⟩

/-- An ADVERT with one entry. -/
def advertOf (sequence : BitVec 16) (fresh withdraw : Bool) : Advert :=
  ⟨sequence, fresh, withdraw, true, 1, [⟨1, 40, 4, 12, 900, 1500, 0⟩]⟩

theorem witness_AdvertIsStoredWhole :
    (stationH.hears 50 (advertOf 7 false false).bytes ∧ stationH.ViewForm ∧ stationH.HoldsOk ∧
      readAdvert (advertOf 7 false false).bytes = some (advertOf 7 false false) ∧ stationH.knows 50 = false ∧
      stationH.tv.nodes.length < 64) ∧
    (stationH.hears 20 (advertOf 32761 false false).bytes ∧
      readAdvert (advertOf 32761 false false).bytes = some (advertOf 32761 false false) ∧
      ∃ r, Table.lookup NodeRecord.id 20 stationH.tv.nodes = some r ∧
        1 ≤ ((32761 : BitVec 16) - r.sequence).toNat ∧ ((32761 : BitVec 16) - r.sequence).toNat ≤ 32767) ∧
    (readAdvert (advertOf 0 true false).bytes = some (advertOf 0 true false) ∧ stationH.knows 20 = true) :=
  ⟨⟨by decide +kernel, stationH_viewForm, stationH_holdsOk, by decide +kernel⟩,
    ⟨by decide +kernel, by decide +kernel, _, rfl, by decide, by decide⟩, by decide +kernel⟩

/-- A view of 64 nodes. -/
def stationFull : State :=
  { stationA with tv.nodes := (List.range 64).map (fun i => ⟨i + 10, 0, true, 1, 0, i == 0, 0⟩), tv.links := [] }

theorem witness_AdvertThatStoresNothing :
    (stationA.hears 50 [] ∧ readAdvert [] = none) ∧
    (stationA.hears 50 (Advert.bytes ⟨7, false, true, true, 1, []⟩) ∧ stationA.knows 50 = false ∧
      (readAdvert (Advert.bytes ⟨7, false, true, true, 1, []⟩)).map Advert.withdraw = some true) ∧
    (stationFull.hears 80 (advertOf 7 false false).bytes ∧ stationFull.knows 80 = false ∧
      64 ≤ stationFull.tv.nodes.length) ∧
    (∃ r, Table.lookup NodeRecord.id 20 stationA.tv.nodes = some r ∧
      32768 ≤ ((32762 : BitVec 16) - r.sequence).toNat ∧ (65530 : BitVec 16) = r.sequence ∧
      stationA.hears 20 (advertOf 32762 false false).bytes ∧
      readAdvert (advertOf 32762 false false).bytes = some (advertOf 32762 false false) ∧
      readAdvert (advertOf 65530 false false).bytes = some (advertOf 65530 false false)) :=
  ⟨by decide +kernel, by decide +kernel, by decide +kernel, _, rfl, by decide, by decide, by decide +kernel,
    by decide +kernel, by decide +kernel⟩

theorem witness_WithdrawPurgesTheOrigin :
    stationH.hears 20 (Advert.bytes ⟨32761, false, true, true, 1, []⟩) ∧ stationH.ViewForm ∧ stationH.HoldsOk ∧
    readAdvert (Advert.bytes ⟨32761, false, true, true, 1, []⟩) = some ⟨32761, false, true, true, 1, []⟩ ∧
    (∃ r, Table.lookup NodeRecord.id 20 stationH.tv.nodes = some r ∧
      ((32761 : BitVec 16) - r.sequence).toNat ≤ 32767) ∧ (∃ h ∈ stationH.hu.holds, h.own = false ∧ h.origin = 20) ∧
    -- with the conditions set that the purge clears, and isolated
    (let s := { aging with lac.isolated := true };
      s.hears 20 (Advert.bytes ⟨65530, false, true, true, 1, []⟩) ∧ s.ViewForm ∧ s.HoldsOk ∧
      readAdvert (Advert.bytes ⟨65530, false, true, true, 1, []⟩) = some ⟨65530, false, true, true, 1, []⟩ ∧
      (∃ r, Table.lookup NodeRecord.id 20 s.tv.nodes = some r ∧ ((65530 : BitVec 16) - r.sequence).toNat = 0) ∧
      s.tv.viewIncomplete = true ∧ s.hu.overflow = true ∧ s.heard ≠ s) :=
  ⟨by decide +kernel, stationH_viewForm, stationH_holdsOk, by decide +kernel, ⟨_, rfl, by decide⟩, by decide,
    by decide +kernel, aging_viewForm.of_eq rfl rfl, aging_holdsOk.of_eq rfl rfl rfl, by decide +kernel,
    ⟨_, rfl, by decide⟩, rfl, rfl, by decide +kernel⟩

theorem witness_EveryStepKeepsViewForm : stationH.Agree ∧ stationH.Ranges ∧ stationH.ViewForm ∧
    ∃ t, step stationH = .next t := ⟨stationH_agree, stationH_ranges, stationH_viewForm, _, rfl⟩

theorem witness_EveryStepKeepsVerification : stationH.Agree ∧ stationH.Ranges ∧ stationH.ViewForm ∧ stationH.Verified ∧
    ∃ t, step stationH = .next t := ⟨stationH_agree, stationH_ranges, stationH_viewForm, stationH_verified, _, rfl⟩

theorem witness_SolicitIsAnswered :
    (stationA.hears 20 [] ∧ stationA.heard.sc.station = .operating ∧ stationA.heard.ads.postDropWait = false ∧
      stationA.heard.ads.debt ≠ -8 ∧ stationA.heard.ads.entryPresent = false ∧ stationA.heard.entry 8 = none) ∧
    (let s := { stationA with ads.debt := -8 }; s.hears 20 [1] ∧ s.heard.ads.debt = -8) ∧
    (let s := { stationA with ads.entryPresent := true }; s.hears 20 [1] ∧ s.heard.ads.entryPresent = true) := by
  decide

/-- Station A with its ADVERT on the line. -/
def sendingAdvert (fresh : BitVec 8) : State :=
  { stationH with
    lac.due := stationH.lac.due.set 8 (due .advert 2)
    lac.attempt := some ⟨8, .advert, [0x21, 0, 10, 0, 12, 0, 0, 0, fresh], 0⟩ }

theorem witness_AdvertSentAdvancesSequence :
    (∀ f : BitVec 8, f = 0 ∨ f = 1 → (sendingAdvert f).resetHeld = false ∧ (sendingAdvert f).sc.station = .operating ∧
      (∃ a, (sendingAdvert f).lac.attempt = some a ∧ a.place = 8 ∧ a.kind = .advert ∧ a.fresh = decide (f = 1) ∧
        succeedsBy a .attemptSucceeded) ∧
      (∃ e, (sendingAdvert f).entry 8 = some e ∧ e.followOn = none) ∧ (sendingAdvert f).ownRecord.isSome = true ∧
      (sendingAdvert f).ads.debt ≤ 8 ∧ (sendingAdvert f).slot 0 = .live .held 5 31) ∧
    (let s := { announcingA with
        lac.due := announcingA.lac.due.set 8 (some ⟨.advert, 1, 0, 0, none, some (.advert, 2), false⟩)
        lac.attempt := (sendingAdvert 1).lac.attempt };
      s.resetHeld = false ∧ s.sc.station = .announcing ∧ s.ads.announceCount + 1 = 2 ∧ s.sc.joinWaiting = some 60 ∧
      (∃ e, s.entry 8 = some e ∧ e.followOn = some (.advert, 2)) ∧ s.ownRecord.isSome = true ∧ s.ads.debt ≤ 8) ∧
    (let s := { stationL with
        lac.due := stationL.lac.due.set 8 (some ⟨.advert, 2, 0, 0, none, some (.withdraw, 0), false⟩)
        lac.attempt := (sendingAdvert 0).lac.attempt };
      s.resetHeld = false ∧ s.sc.station = .leaving ∧
      (∃ a, s.lac.attempt = some a ∧ a.place = 8 ∧ a.kind = .advert ∧ succeedsBy a .attemptSucceeded) ∧
      (∃ e, s.entry 8 = some e ∧ e.followOn = some (.withdraw, 0)) ∧ s.ownRecord.isSome = true ∧ s.ads.debt ≤ 8) := by
  refine ⟨?_, ⟨rfl, rfl, rfl, rfl, ⟨_, rfl, rfl⟩, rfl, by decide⟩, rfl, rfl, ⟨_, rfl, rfl, rfl, .inl rfl⟩, ⟨_, rfl, rfl⟩,
    rfl, by decide⟩
  rintro f (rfl | rfl)
  · exact ⟨rfl, rfl, ⟨_, rfl, rfl, rfl, rfl, .inl rfl⟩, ⟨_, rfl, rfl⟩, rfl, by decide, rfl⟩
  · exact ⟨rfl, rfl, ⟨_, rfl, rfl, rfl, rfl, .inl rfl⟩, ⟨_, rfl, rfl⟩, rfl, by decide, rfl⟩

/-- Place `p` of station A holds `e`, on the line or not. -/
def placed (p : Fin 10) (e : Entry) (onLine : Bool) : State :=
  { stationA with
    lac.due := stationA.lac.due.set p (some e)
    lac.attempt := if onLine then some ⟨p, e.kind, [], 0⟩ else none
    lac.echo := onLine }

theorem witness_DueKindsMeetByTheTable :
    stationM.sc.station = .muted ∧ stationA.sc.station ≠ .muted ∧ stationA.entry 0 = none ∧
    (∀ k k' b, (placed 0 ⟨k, 1, 4, 2, none, some (k', 1), true⟩ b).sc.station ≠ .muted ∧
      (placed 0 ⟨k, 1, 4, 2, none, some (k', 1), true⟩ b).entry 0 = some ⟨k, 1, 4, 2, none, some (k', 1), true⟩ ∧
      (placed 0 ⟨k, 1, 4, 2, none, none, true⟩ b).entry 0 = some ⟨k, 1, 4, 2, none, none, true⟩ ∧
      (placed 0 ⟨k, 1, 4, 2, none, some (k', 1), true⟩ b).onLine 0 = b) := by
  refine ⟨rfl, by decide, by decide, fun k k' b => ⟨nofun, rfl, rfl, ?_⟩⟩
  cases b <;> rfl

theorem witness_FirstEntryInOrderStarts :
    (∃ e body, (quiet stationH).entry 1 = some e ∧ (quiet stationH).frameBody 1 e.kind = some body ∧
      (quiet stationH).mayStart 1 = true) ∧
    (quiet stationH).resetHeld = false ∧ ((quiet stationH).elapse 5).firstStartable = some 1 ∧
    (stationA.resetHeld = false ∧ (stationA.elapse 5).firstStartable = none) ∧
    -- the bodies of each kind
    (stationH.ownRecord.isSome = true ∧ stationH.HoldsOk ∧ (stationH.slot 4).number = some 9 ∧
      ∃ h ∈ stationH.hu.holds, h.own = true ∧ h.number = 9) ∧
    -- a run, whole and cut
    (∀ cut, ∃ x, ({ stationA with lac.sending := some ⟨0, [1], cut⟩ } : State).lac.sending = some x ∧ x.cut = cut) ∧
    (∃ x, silent.lac.sending = some x ∧ x.cut = none ∧ silent.lac.attempt = some attempt24 ∧ silent.lac.echo = false) :=
  ⟨⟨_, _, rfl, rfl, by decide +kernel⟩, rfl, by decide +kernel, ⟨rfl, by decide +kernel⟩,
    ⟨rfl, stationH_holdsOk, rfl, by decide⟩, fun _ => ⟨_, rfl, rfl⟩, ⟨_, rfl, rfl, rfl, rfl⟩⟩

/-- An entry at its eighth attempt. -/
def eighth (k : FrameKind) (c : Fin 3) : Entry := ⟨k, c, 0, 7, none, none, false⟩

theorem witness_FailedAttemptBacksOff : ∀ followOn withdrawn,
    (let s := placed 1 ⟨.announce, 1, 0, 6, none, followOn, withdrawn⟩ true;
      s.resetHeld = false ∧ ∃ a e, s.lac.attempt = some a ∧ s.entry a.place = some e ∧
        s.failsBy a (.collision [.k]) (s.attemptAborted a 1) ∧
        (broken s).failsBy a .echoLost ((broken s).attemptAborted a 9) ∧
        e.followOn = followOn ∧ e.withdrawn = withdrawn ∧ e.attempts < 7) ∧
    (let s := { placed 1 ⟨.announce, 1, 0, 0, none, followOn, withdrawn⟩ true with
        lac.echo := false };
      s.resetHeld = false ∧ ∃ a e, s.lac.attempt = some a ∧ s.entry a.place = some e ∧
        s.failsBy a .echoLost (s.attemptAborted a 12) ∧ e.followOn = followOn ∧ e.withdrawn = withdrawn) :=
  fun _ _ => ⟨⟨rfl, _, _, rfl, rfl, fails_by_mismatch _ _, fails_by_loss _ _ rfl, rfl, rfl, (by decide : 6 < 7)⟩,
    rfl, _, _, rfl, rfl, fails_by_silence _ _ rfl rfl, rfl, rfl⟩

theorem witness_EighthFailureDropsTheEntry :
    (∀ p k c, (onLineH p (eighth k c)).resetHeld = false ∧ ∃ a e, (onLineH p (eighth k c)).lac.attempt = some a ∧
      (onLineH p (eighth k c)).entry a.place = some e ∧ a.place = p ∧ a.kind = k ∧ e.followOn = none ∧
      e.withdrawn = false ∧ e.attempts = 7 ∧
      (onLineH p (eighth k c)).failsBy a (.collision [.k]) ((onLineH p (eighth k c)).attemptAborted a 1) ∧
      (broken (onLineH p (eighth k c))).failsBy a .echoLost ((broken (onLineH p (eighth k c))).attemptAborted a 9)) ∧
    (stationH.sc.station = .operating ∧ stationH.slot 3 = .live (.committing 65) 8 34 ∧
      stationH.slot 5 = .closing 10 36 .expired true ∧ stationH.slot 1 = .live (.pending none) 6 32) ∧
    -- a report to a slot in another state: of a restated ANNOUNCE, in its contest or after it; of a COMMIT, a RELEASE
    ((∀ n t c, stationH.slot 2 ≠ .live (.pending c) n t) ∧ (∀ n t c, stationH.slot 0 ≠ .live (.pending c) n t) ∧
      (∀ n t c, stationH.slot 5 ≠ .live (.committing c) n t) ∧ ∀ n t o b, stationH.slot 4 ≠ .closing n t o b) ∧
    (∀ p e, (onLineH p e).HoldsOk) ∧
    (let s := { announcingA with
        lac.due := announcingA.lac.due.set 8 (some (eighth .advert 1))
        lac.attempt := some ⟨8, .advert, [], 0⟩ };
      s.resetHeld = false ∧ s.sc.station = .announcing ∧ s.ads.announceCount = 1 ∧ s.sc.joinWaiting = some 60 ∧
      s.entry 8 = some (eighth .advert 1) ∧ ∃ a, s.lac.attempt = some a ∧
        s.failsBy a .echoLost (s.attemptAborted a 12)) :=
  ⟨fun p k c => ⟨rfl, _, eighth k c, rfl, by simp [onLineH, State.entry], rfl, rfl, rfl, rfl, rfl,
      fails_by_mismatch _ _, fails_by_loss _ _ rfl⟩, by decide, ⟨nofun, nofun, nofun, nofun⟩,
    fun _ _ => stationH_holdsOk.of_eq rfl rfl rfl, rfl, rfl, rfl, rfl, rfl, _, rfl, fails_by_silence _ _ rfl rfl⟩

theorem witness_HoldFrameSentMovesTheSlot :
    (∀ p k c, ∃ a e, (onLineH p (eighth k c)).lac.attempt = some a ∧ (onLineH p (eighth k c)).entry a.place = some e ∧
      a.place = p ∧ a.kind = k ∧ e.followOn = none ∧ succeedsBy a .attemptSucceeded) ∧
    (∀ p k f, ∃ a e, (onLineH p ⟨k, 1, 0, 0, none, some f, false⟩).lac.attempt = some a ∧
      (onLineH p ⟨k, 1, 0, 0, none, some f, false⟩).entry a.place = some e ∧ e.followOn = some f) ∧
    (stationH.slot 1 = .live (.pending none) 6 32 ∧ (∀ n t c, stationH.slot 2 ≠ .live (.pending c) n t) ∧
      (∀ n t c, stationH.slot 5 ≠ .live (.committing c) n t) ∧ (∀ n t o b, stationH.slot 4 ≠ .closing n t o b) ∧
      stationH.slot 5 = .closing 10 36 .expired true ∧ stationH.slot 3 = .live (.committing 65) 8 34) ∧
    (∃ h, (stationH.attemptOver ⟨3, .commit, [], 0⟩ 32).ownHold 8 = some h ∧
      stationH.isSuperseded { h with committed := true, lifetime := some (stationH.timing.commit * 1000000) } = false ∧
      ({ stationH with tv.links := stationH.tv.links.map (fun l => { l with used := 0x100 }) } : State).isSuperseded
        { h with committed := true, lifetime := some (stationH.timing.commit * 1000000) } = true) ∧
    (∀ h ∈ stationH.hu.holds, (∀ k ∈ h.links, k.valid = true) ∧ h.start + h.width ≤ 64) :=
  ⟨fun p k c => ⟨_, eighth k c, rfl, by simp [onLineH, State.entry], rfl, rfl, rfl, .inl rfl⟩,
    fun p k f => ⟨_, ⟨k, 1, 0, 0, none, some f, false⟩, rfl, by simp [onLineH, State.entry], rfl⟩,
    ⟨rfl, nofun, nofun, nofun, rfl, rfl⟩, ⟨ownHoldA 8 8 true false (some 9000), by decide +kernel⟩, by decide⟩

theorem witness_LineIsWatched :
    (stationA.resetHeld = false ∧ stationA.lac.activity = true ∧ stationA.lac.echo = false ∧
      stationA.lac.attempt = none) ∧
    (∀ x ∈ stationA.lac.assembler.ended (startDelimiter ++ abortDelimiter), judgeEnded x = none) ∧
    (quiet stationA).lac.activity = false ∧ stationA.lac.watch = .running 0 ∧ (∀ e, configured.lac.watch ≠ .running e) ∧
    (∃ a, (onLineH 1 (eighth .announce 1)).lac.attempt = some a ∧ (onLineH 1 (eighth .announce 1)).lac.echo = true ∧
      (onLineH 1 (eighth .announce 1)).lac.sending.bind Transmission.cut = none ∧
      firstMismatch (lineRun a.frame) ((lineRun a.frame).take 31) = none ∧
      ((lineRun a.frame).take 31).length < 8 * (a.frame.length + 4)) :=
  ⟨⟨rfl, rfl, rfl, rfl⟩, by decide, rfl, rfl, nofun, _, rfl, by decide⟩

theorem witness_BackoffStaysInBounds : (1 : BitVec 16) ≠ 0#16 := by decide

theorem witness_EveryStepKeepsDueList : stationH.Agree ∧ stationH.DueOk ∧ ∃ t, step stationH = .next t :=
  ⟨stationH_agree, stationH_dueOk, _, rfl⟩

theorem witness_UsabilityAndRank :
    (stationH.BlocksOk ∧ ∃ l ∈ stationH.tv.links, l.key.valid = true ∧ 56 + 8 ≤ 64) ∧
    (∃ a ∈ stationH.hu.holds, ∃ b ∈ stationH.hu.holds, ∃ c ∈ stationH.hu.holds,
      (a.origin ≠ b.origin ∨ a.number ≠ b.number) ∧
      a.outranks b = true ∧ b.outranks c = true) :=
  ⟨⟨stationH_blocksOk, by decide⟩, by decide⟩

/-- Station A with a full block table. -/
def stationB : State :=
  { stationA with hu.blocks := (List.range 32).map (fun i => ⟨⟨20 + i / 16, i % 16⟩, 1⟩) }

theorem witness_BlockRequestsSetAndClear :
    (stationH.takes ∧ stationH.BlocksOk ∧ (⟨40, 4⟩ : LinkKey) = ⟨(40#16).toNat, (4#8).toNat⟩ ∧
      stationH.sc.station ≠ .unconfigured ∧ (∃ b ∈ stationH.hu.blocks, b.key = ⟨40, 4⟩) ∧
      (∀ b ∈ stationH.hu.blocks, b.key ≠ ⟨65534, 15⟩) ∧ stationH.hu.blocks.length < 32) ∧
    (State.reset.takes ∧ State.reset.BlocksOk ∧ State.reset.sc.station = .unconfigured) ∧
    (stationB.takes ∧ stationB.BlocksOk ∧ stationB.hu.blocks.length = 32 ∧
      ∀ b ∈ stationB.hu.blocks, b.key ≠ ⟨40, 4⟩) := by
  refine ⟨⟨by decide, stationH_blocksOk, by decide⟩, ⟨by decide, ?_, rfl⟩, by decide, ?_, by decide⟩ <;>
    constructor <;> first | decide | (unfold Table.Sorted; decide)

theorem witness_EveryStepKeepsBlocks : stationH.BlocksOk ∧ ∃ t, step stationH = .next t := ⟨stationH_blocksOk, _, rfl⟩

theorem witness_HoldCommitActsOnTheSlot :
    configured.takes ∧ configured.sc.station.joined = false ∧ stationH.takes ∧ stationH.sc.station.joined = true ∧
    (∀ i : Fin 8, (stationH.slot i).number ≠ some 12) ∧
    (∀ i j : Fin 8, (stationH.slot i).number ≠ none → (stationH.slot j).number = (stationH.slot i).number → j = i) ∧
    stationH.slot 0 = .live .held 5 31 ∧ stationH.slot 1 = .live (.pending none) 6 32 ∧
    stationH.slot 2 = .live (.announced 500 (some 66)) 7 33 ∧ announced5.slot 0 = .live (.announced 15000 none) 5 31 ∧
    (∀ j : Fin 8, (announced5.slot j).number = some 5 → j = 0) ∧ stationH.slot 3 = .live (.committing 65) 8 34 ∧
    stationH.slot 4 = .live .committed 9 35 ∧ stationH.slot 5 = .closing 10 36 .expired true ∧
    stationH.slot 6 = .ended 11 37 .lost := by decide

theorem witness_HoldReleaseEndsTheHold :
    (configured.takes ∧ configured.sc.station.joined = false) ∧ stationH.takes ∧
    stationH.sc.station.joined = true ∧ stationH.HoldsOk ∧
    (∀ i : Fin 8, (stationH.slot i).number ≠ some 12) ∧
    (∀ j : Fin 8, (stationH.slot j).number = some 5 → j = 0) ∧ stationH.slot 0 = .live .held 5 31 ∧
    (∀ commit, Substate.held ≠ .pending commit) ∧ (∀ j : Fin 8, (stationH.slot j).number = some 6 → j = 1) ∧
    stationH.slot 1 = .live (.pending none) 6 32 ∧ stationH.announceOnLine 1 = false ∧
    (let s := onLineH 1 ⟨.announce, 1, 0, 0, none, none, false⟩;
      s.takes ∧ s.HoldsOk ∧ s.slot 1 = .live (.pending none) 6 32 ∧ s.announceOnLine 1 = true) :=
  ⟨by decide, by decide, by decide, stationH_holdsOk, by decide, by decide, rfl, nofun, by decide, rfl, by decide,
    by decide,    stationH_holdsOk.of_eq rfl rfl rfl, rfl, by decide⟩

theorem witness_HoldsAreRead :
    (configured.takes ∧ configured.sc.station.joined = false) ∧ stationH.takes ∧
    stationH.sc.station.joined = true ∧ stationH.HoldsOk ∧ stationH.BlocksOk ∧
    (∀ i : Fin 8, (stationH.slot i).number ≠ some 12) ∧ (stationH.slot 6).isLive = false ∧
    (∀ j : Fin 8, (stationH.slot j).number = some 7 → j = 2) ∧
    stationH.slot 2 = .live (.announced 500 (some 66)) 7 33 ∧
    (∃ h ∈ stationH.hu.holds, h.origin = stationH.ownId ∧ h.number = 7) ∧
    (∃ h ∈ stationH.hu.holds, h.origin = stationH.ownId ∧ h.number = 5 ∧ h.lifetime = some 12000000) ∧
    (∀ h ∈ stationH.hu.holds, h.start + h.width ≤ 64) ∧
    (∃ b ∈ stationH.hu.blocks, b.key = ⟨(40#16).toNat, (4#8).toNat⟩) ∧
    (∀ b ∈ stationH.hu.blocks, b.key ≠ ⟨(65534#16).toNat, (15#8).toNat⟩) ∧ 15 < (16#8).toNat :=
  ⟨by decide, by decide, by decide, stationH_holdsOk, stationH_blocksOk, by decide⟩

/-- An ANNOUNCE's hold from C on A:1, which outranks the own hold on that slot. -/
def rival : HoldBody := ⟨2, 3, false, 4, 1, [⟨10, 1⟩]⟩

/-- Station A with one own hold and 40 peer holds. -/
def stationP : State :=
  { stationA with
    hu.holds := ownHoldA 6 4 false false none ::
      (List.range 40).map (fun i => ⟨20, BitVec.ofNat 8 i, false, 0, false, false, i, 1, [⟨20, 3⟩], some 5⟩)
    hu.slots := stationA.hu.slots.set 1 (.live (.pending none) 6 32) }

theorem stationP_holdsOk : stationP.HoldsOk := by
  constructor
  · unfold Table.Sorted; decide +kernel
  all_goals decide +kernel

/-- Station A with two own holds in their contests on A:1, a HOLD COMMIT waiting on each: hold 7 outranks hold 6. -/
def stationT : State :=
  { stationA with
    hu.holds := [ownHoldA 6 4 false false none, { ownHoldA 7 5 false false none with priority := 2 }]
    hu.slots := (stationA.hu.slots.set 1 (.live (.announced 9 (some 65)) 6 32)).set 2
      (.live (.announced 9 (some 66)) 7 33)
    clp.reservations := 2 }

theorem stationT_holdsOk : stationT.HoldsOk := by
  constructor
  · unfold Table.Sorted; decide +kernel
  all_goals decide +kernel

/-- Section 6.5: one frame beats two own holds; their HOLD COMMITs complete LOST, the higher of them first (log 33). -/
theorem test_lost_in_rank_order :
    (did (.objectReceived 30 (HoldBody.bytes ⟨2, 0, false, 4, 2, [⟨10, 1⟩]⟩)) stationT).clp.completions =
      [⟨.holdCommit, 66, .lost, .none, false, .holdNumber 7⟩,
        ⟨.holdCommit, 65, .lost, .none, false, .holdNumber 6⟩] := by
  decide +kernel

/-- A COMMIT that outranks both of them, lit on its link by station A's own used slots. -/
theorem witness_superseded_winner :
    (let s := { stationT with tv.links := stationT.tv.links.map (fun l : LinkRecord => { l with used := 0x30 }) };
      s.hears 30 (HoldBody.bytes ⟨2, 0, false, 4, 2, [⟨10, 1⟩]⟩) ∧ s.HoldsOk ∧
      (∀ r ∈ s.hu.holds, r.overlaps (incomingHold .commit 30 ⟨2, 0, false, 4, 2, [⟨10, 1⟩]⟩) = true ∧
        (incomingHold .commit 30 ⟨2, 0, false, 4, 2, [⟨10, 1⟩]⟩).outranks r = true) ∧
      s.isSuperseded { incomingHold .commit 30 ⟨2, 0, false, 4, 2, [⟨10, 1⟩]⟩ with
        lifetime := some 601000000 } = true) := by
  refine ⟨by decide, ?_, by decide +kernel, by decide +kernel⟩
  constructor
  · unfold Table.Sorted; decide +kernel
  all_goals decide +kernel

theorem witness_IncomingHoldsAreCompared :
    holdRow .announce 30 rival.bytes = some (.announceReceived 30 rival.bytes) ∧
    (∀ b : HoldBody, b ∈ [rival, ⟨2, 2, false, 1, 2, [⟨30, 1⟩]⟩, ⟨9, 2, false, 56, 8, [⟨30, 1⟩]⟩,
      ⟨9, 2, false, 24, 1, [⟨20, 1⟩]⟩, ⟨7, 0, false, 20, 2, [⟨20, 1⟩]⟩, ⟨7, 0, false, 22, 2, [⟨20, 1⟩]⟩] →
      stationH.hears 30 b.bytes ∧ stationH.knows 30 = true ∧ readHoldBody b.bytes = some b) ∧
    (stationH.HoldsOk ∧ stationP.HoldsOk ∧ stationP.hears 30 rival.bytes) ∧
    (stationH.knows 50 = false ∧ readHoldBody [] = none) ∧
    -- a refresh, with and without supersession, and a change
    (∃ r ∈ stationH.hu.holds, r.code = (incomingHold .commit 20 ⟨7, 0, false, 20, 2, [⟨20, 1⟩]⟩).code ∧ r.start = 20 ∧
      r.width = 2 ∧ r.links = [⟨20, 1⟩] ∧ r.committed = false ∧
      stationH.isSuperseded { r with established := true, committed := true, lifetime := some 601000000 } = true) ∧
    (∃ r ∈ stationH.hu.holds, r.code = (incomingHold .announce 40 ⟨3, 3, false, 30, 1, [⟨40, 4⟩]⟩).code ∧ r.start = 30 ∧
      r.width = 1 ∧ r.links = [⟨40, 4⟩] ∧ r.committed = false) ∧
    -- no record of the key: outranked, no overlap (stored or superseded), no place, and a win
    (∀ b : HoldBody, b ∈ [rival, ⟨2, 2, false, 1, 2, [⟨30, 1⟩]⟩] →
      ∀ r ∈ stationH.hu.holds, r.code ≠ (incomingHold .announce 30 b).code) ∧
    (∃ r ∈ stationH.hu.holds, r.overlaps (incomingHold .announce 30 ⟨2, 2, false, 1, 2, [⟨30, 1⟩]⟩) = true ∧
      r.outranks (incomingHold .announce 30 ⟨2, 2, false, 1, 2, [⟨30, 1⟩]⟩) = true) ∧
    (∀ r ∈ stationH.hu.holds, r.overlaps (incomingHold .announce 30 ⟨9, 2, false, 56, 8, [⟨30, 1⟩]⟩) = false) ∧
    (∀ r ∈ stationH.hu.holds, r.overlaps (incomingHold .commit 30 ⟨9, 2, false, 24, 1, [⟨20, 1⟩]⟩) = false) ∧
    stationH.isSuperseded { incomingHold .commit 30 ⟨9, 2, false, 24, 1, [⟨20, 1⟩]⟩ with
      lifetime := some 601000000 } = true ∧
    stationH.peerHolds < 40 ∧ 40 ≤ stationP.peerHolds ∧
    (∀ r ∈ stationP.hu.holds, r.overlaps (incomingHold .announce 30 ⟨9, 2, false, 56, 8, [⟨30, 1⟩]⟩) = false) ∧
    (∀ s ∈ [stationH, stationP], s.hu.holds.filter (fun r => r.overlaps (incomingHold .announce 30 rival)) ≠ [] ∧
      ∀ r ∈ s.hu.holds.filter (fun r => r.overlaps (incomingHold .announce 30 rival)),
        (incomingHold .announce 30 rival).outranks r = true ∧ r.own = true) :=
  ⟨rfl, by decide +kernel, ⟨stationH_holdsOk, stationP_holdsOk, by decide⟩, by decide, by decide +kernel,
    by decide +kernel, by decide +kernel, by decide +kernel, by decide +kernel, by decide +kernel, by decide +kernel,
    by decide, by decide +kernel, by decide +kernel, by decide +kernel⟩

theorem witness_TimersAndReleasesEndHolds :
    (stationH.hears 20 [7] ∧ stationH.HoldsOk ∧
      (∃ r ∈ stationH.hu.holds, r.code = holdCode 20 7 ∧ r.own = false ∧ r.lifetime = some 5000) ∧
      (∀ r ∈ stationH.hu.holds, r.code ≠ holdCode 20 8) ∧ stationH.knows 50 = false ∧ ([] : List Byte).length ≠ 1 ∧
      (∀ r ∈ stationH.hu.holds, r.code = holdCode 10 5 → r.own = true)) ∧
    (stationH.slot 2 = .live (.announced 500 (some 66)) 7 33 ∧
      ({ stationH with events := stationH.events + 1 }.elapse (stationH.timing.contest * 1000 - 500)).HoldsOk ∧
      announced5.slot 0 = .live (.announced 15000 none) 5 31 ∧
      (∃ h ∈ ({ stationH with events := stationH.events + 1 }.elapse (stationH.timing.contest * 1000 - 500)).hu.holds,
        h.origin = stationH.ownId ∧ h.number = 7)) ∧
    (∀ e commit n t, stationH.slot 0 ≠ .live (.announced e commit) n t) ∧
    (stationH.slot 0 = .live .held 5 31 ∧ stationH.slot 4 = .live .committed 9 35 ∧
      ∃ h ∈ stationH.hu.holds, h.origin = stationH.ownId ∧ h.number = 5 ∧ h.lifetime = some 12000000) ∧
    (∀ n t, stationH.slot 2 ≠ .live .held n t ∧ stationH.slot 2 ≠ .live .committed n t) := by
  refine ⟨⟨by decide +kernel, stationH_holdsOk, by decide +kernel⟩, ⟨by decide +kernel, ?_, by decide +kernel,
    by decide +kernel⟩, nofun, by decide +kernel, fun n t => ⟨nofun, nofun⟩⟩
  constructor
  · unfold Table.Sorted; decide +kernel
  all_goals decide +kernel

theorem witness_EveryStepKeepsHolds : stationH.Agree ∧ stationH.Ranges ∧ stationH.ViewForm ∧ stationH.HoldsOk ∧
    ∃ t, step stationH = .next t := ⟨stationH_agree, stationH_ranges, stationH_viewForm, stationH_holdsOk, _, rfl⟩

/-- The path queue of section 7.11, its search in flight, marked or not. -/
def searching (abortTag : Option Tag) (phase : SearchPhase) : State :=
  { stationA with
    psu := ⟨[request31, { request31 with tag := 51 }], some { searchA with abortTag := abortTag, phase := phase }⟩ }

theorem witness_PathRequestsQueueAndAbort :
    (stationA.takes ∧ stationA.psu.queue.length < 4 ∧ stationA.sc.station = .operating) ∧
    -- the request of section 7.8 is taken, one with its ends equal is not
    (bodyA.source ≠ bodyA.destination ∧ ¬(63 + 1 < 0 + bodyA.width.toNat) ∧ bodyA.maxHops ≠ 0#8 ∧
      ({ bodyA with destination := 10 } : PathBody).source =
        ({ bodyA with destination := 10 } : PathBody).destination) ∧
    (∀ tag, (searching tag .selecting).takes ∧
      (∃ c rest, (searching tag .selecting).psu.context = some c ∧
        (searching tag .selecting).psu.queue = request31 :: rest ∧ c.abortTag = tag) ∧
      (searching tag .selecting).psu.queue = [request31] ++ { request31 with tag := 51 } :: [] ∧
      request31.tag ≠ 51 ∧ ∀ x ∈ (searching tag .selecting).psu.queue, x.tag ≠ 77) ∧
    (stationA.psu.context = none ∧ ∀ x ∈ stationA.psu.queue, x.tag ≠ 31) ∧
    (stationA.resetHeld = false ∧ ∀ c, stationA.psu.context = some c → c.abortTag = none) :=
  ⟨by decide, by decide, fun _ => ⟨⟨⟨rfl, rfl⟩, (by decide : 0 + 0 < 16)⟩, ⟨_, _, rfl, rfl, rfl⟩, rfl, by decide,
    (by decide : ∀ x ∈ [request31, { request31 with tag := 51 }], x.tag ≠ 77)⟩, by decide, rfl, by decide⟩

theorem witness_SearchesAndPassesStart :
    (let s := { stationA with psu.queue := [request31] };
      s.resetHeld = false ∧ s.psu.context = none ∧ s.psu.queue = request31 :: [] ∧
      (∃ x ∈ s.tv.nodes, x.id = request31.source) ∧ ∃ x ∈ s.tv.nodes, x.id = request31.destination) ∧
    (let s := { configured with psu.queue := [request31] }; ∀ x ∈ s.tv.nodes, x.id ≠ request31.source) ∧
    (stationA.resetHeld = false ∧ stationA.psu.queue = []) ∧
    (let s := searching none .passStart;
      s.resetHeld = false ∧ s.psu.context = some { searchA with phase := .passStart } ∧ s.ViewForm ∧
      (∃ x ∈ s.tv.nodes, x.id = request31.source ∧ x.profile < 16) ∧
      effectivePenalty searchA.snapshot[0].add searchA.snapshot[0].penaltyTrim = 150 ∧ 150 ≤ request31.budget) ∧
    (let s := { searching none .passStart with tv := configured.tv };
      ∀ x ∈ s.tv.nodes, x.id ≠ request31.source) :=
  ⟨by decide, by decide, by decide, ⟨rfl, rfl, stationA_viewForm.of_eq rfl rfl, by decide, by decide, by decide⟩,
    by decide⟩

theorem witness_SelectionTakesTheLeast :
    -- the steps of section 7.8: C is least, then the best arrival is
    ((searching none .selecting).resetHeld = false ∧ (searching none .selecting).psu.context = some searchA ∧
      searchA.abortTag = none ∧ searchA.phase = .selecting ∧ (searching none .selecting).ViewForm ∧
      searchA.tree.length < 64 ∧ searchA.bestArrival = none ∧
      (∃ n ∈ searchA.frontier, (∀ l ∈ searchA.frontier, l ≠ n → n.better l = true) ∧
        ∃ x ∈ stationA.tv.nodes, x.id = n.node)) ∧
    (∀ l ∈ ([] : List Label), Label.better ⟨40, 17, 4208, 1300, 2, some ⟨30, 1⟩⟩ l = true) ∧
    -- a link that is extended, to another node and to the destination, and one that is skipped
    (∃ l ∈ stationA.tv.links, l.key = ⟨10, 1⟩ ∧ l.verified = true ∧ l.key ∉ request31.excludedKeys ∧
      l.toNode ∉ request31.excludedNodes ∧ l.toNode ≠ request31.source ∧ l.toNode ≠ request31.destination ∧
      stationA.usable l 0 2 = true ∧ 0 + 1 ≤ request31.maxHops ∧
        ∃ x ∈ stationA.tv.nodes, x.id = l.toNode ∧ x.profile < 16) ∧
    (∃ l ∈ stationA.tv.links, l.key = ⟨30, 1⟩ ∧ l.toNode = request31.destination ∧ stationA.usable l 0 2 = true) ∧
    (∃ l ∈ stationA.tv.links, l.key = ⟨30, 2⟩ ∧ l.toNode = request31.source) ∧
    (4208 ≤ request31.budget ∧ request31.dmin ≤ 1300 ∧ 1300 ≤ request31.dmax) :=
  ⟨⟨rfl, rfl, rfl, rfl, stationA_viewForm.of_eq rfl rfl, by decide, rfl, by decide +kernel⟩, by decide,
    by decide +kernel, by decide +kernel, by decide +kernel, by decide⟩

/-- Station A with the result of section 7.8, in a station state and with own hold slots. -/
def finishing (station : Station) (slots : Vector Slot 8) (holds : List Hold) (hold : Bool) : State :=
  { stationA with
    sc.station := station
    hu.slots := slots
    hu.holds := holds
    psu := ⟨[request31], some { found31 with request := { request31 with hold := hold } }⟩ }

theorem witness_SearchesComplete :
    (∀ hold, (finishing .operating (Vector.replicate 8 .free) [] hold).resetHeld = false ∧
      (finishing .operating (Vector.replicate 8 .free) [] hold).ViewForm ∧
      ∃ c, (finishing .operating (Vector.replicate 8 .free) [] hold).psu.context = some c ∧ c.abortTag = none ∧
        c.phase = .completing ∧ c.request.hold = hold ∧ c.bestResult = found31.bestResult) ∧
    (searching none .completing).psu.context = some { searchA with abortTag := none, phase := .completing } ∧
    (∀ x ∈ [((⟨10, 2⟩ : LinkKey), 30), (⟨30, 1⟩, 40)], ∃ l ∈ stationA.tv.links, l.key = x.1 ∧ l.toNode = x.2 ∧
      l.verified = true ∧ stationA.usable l 0 2 = true) ∧
    (¬∀ x ∈ [((⟨10, 2⟩ : LinkKey), 30), (⟨30, 1⟩, 40)], ∃ l ∈ stationH.tv.links, l.key = x.1 ∧ l.toNode = x.2 ∧
      l.verified = true ∧ stationH.usable l 0 2 = true) ∧
    (finishing .muted (Vector.replicate 8 .free) [] true).sc.station = .muted ∧
    (∀ i : Fin 8, (finishing .operating (Vector.replicate 8 (.ended 1 1 .lost)) [] true).slot i ≠ .free) ∧
    (stationA.HoldsOk ∧ stationA.slot 0 = .free ∧ ∀ j : Fin 8, (stationA.slot j).number ≠ some 0) := by
  refine ⟨fun hold => ⟨rfl, stationA_viewForm.of_eq rfl rfl, _, rfl, rfl, rfl, rfl, rfl⟩, rfl, by decide +kernel,
    by decide +kernel, rfl, by decide, ?_, by decide⟩
  constructor
  · unfold Table.Sorted; decide
  all_goals decide

theorem witness_EveryStepKeepsSearch : ∃ s t, s = ({ stationA with
    psu := ⟨[request31], some searchA⟩
    pending := [.selectionStep] } : State) ∧ s.SearchOk ∧ step s = .next t :=
  ⟨_, _, rfl, fun c h => stationA_searching c h, rfl⟩

theorem witness_FramesReadBack : (1 ≤ 1 ∧ 1 ≤ 65534) ∧ (1 ≤ 65534 ∧ 65534 ≤ 65534) ∧
    (List.replicate 512 (0 : Byte)).length ≤ 512 ∧ FrameEnd.violation ≠ .endDelimiter ∧
    (startDelimiter = .j :: startDelimiter.tail ∧ startDelimiter.length = 8) ∧
    (stationA.lac.assembler = .waiting ∧ stationA.listens = true ∧ (onLineH 9 (eighth .solicit 1)).listens = false ∧
      (lineRun (frameBytes .solicit 20 [])).take 112 ++ (lineRun (frameBytes .solicit 20 [])).drop 112 =
        lineRun (frameBytes .solicit 20 [])) := by decide +kernel

theorem witness_BodiesReadBack :
    (let b : HoldBody := ⟨255, 3, true, 56, 8, (List.range 16).map (fun i => ⟨65534 - i, 15⟩)⟩;
      b.priority ≤ 3 ∧ 1 ≤ b.width ∧ b.width ≤ 8 ∧ b.start + b.width ≤ 64 ∧ b.links ≠ [] ∧ b.links.length ≤ 16 ∧
        b.links.Nodup ∧ ∀ k ∈ b.links, 1 ≤ k.node ∧ k.node ≤ 65534 ∧ k.port ≤ 15) ∧
    (let a : Advert := ⟨65535, true, false, true, 15, List.replicate 16 ⟨255, 65535, 255, 65535, 65535, -32768, 0⟩⟩;
      a.profile ≤ 15 ∧ a.entries.length ≤ 16 ∧ ∀ e ∈ a.entries, e.fromPort ≤ 255 ∧ e.toNode ≤ 65535 ∧ e.toPort ≤ 255 ∧
        e.cost ≤ 65535 ∧ e.noise ≤ 65535 ∧ -32768 ≤ e.dispersion ∧ e.dispersion ≤ 32767) := by decide

end Sys2Proof.Tests
end

namespace Sys2Proof.Machine

/-! The fields of a trace word (R45): the model cuts them out by shifts, the statement by bit positions. -/

/-- A 16-bit node id is valid unless it is one of the two reserved ids. -/
theorem validNode_iff_of_lt {n : Nat} (h : n < 65536) : validNode n = true ↔ n ≠ 0 ∧ n ≠ 65535 := by
  simp only [validNode, Bool.and_eq_true, decide_eq_true_eq]
  omega

theorem nibble_eq_extractLsb' (w : BitVec 32) (i : Nat) : nibble w i = w.extractLsb' (4 * i) 4 := by
  apply BitVec.eq_of_toNat_eq
  simp [nibble]

/-- The far node id is the word's top 16 bits, so the shift that reads it loses nothing to the width. -/
theorem toNat_ushiftRight_16_eq (w : BitVec 32) : (w >>> 16).toNat = (w.extractLsb' 16 16).toNat := by
  have hfit : w.toNat >>> 16 < 2 ^ 16 := by
    rw [Nat.shiftRight_eq_div_pow]
    omega
  rw [BitVec.toNat_ushiftRight, BitVec.extractLsb'_toNat, Nat.mod_eq_of_lt hfit]

/-- What reading a trace word answers, in the bit positions of its fields. -/
theorem readTraceWord_eq_some_iff (w : BitVec 32) (node far : Nat) : readTraceWord w = some (node, far) ↔
    (validNode (w.extractLsb' 16 16).toNat = true ∧ w.extractLsb' 8 4 = 0#4 ∧ w.extractLsb' 4 4 = 9#4 ∧
      w.extractLsb' 0 4 = w.extractLsb' 28 4 ^^^ w.extractLsb' 24 4 ^^^ w.extractLsb' 20 4
        ^^^ w.extractLsb' 16 4 ^^^ w.extractLsb' 12 4 ^^^ w.extractLsb' 8 4 ^^^ w.extractLsb' 4 4) ∧
    (w.extractLsb' 16 16).toNat = node ∧ (w.extractLsb' 12 4).toNat = far := by
  simp only [readTraceWord, nibble_eq_extractLsb', toNat_ushiftRight_16_eq, Option.ite_none_right_eq_some,
    Option.some.injEq, Prod.mk.injEq, Nat.reduceMul, BitVec.ofNat_eq_ofNat]

/-- Settles O25: reading a word answers by its fields' tests, and on a 16-bit node id the range 1 to 65534 leaves out
0 and 65535 alone. -/
theorem traceWordsAreChecked : Obligations.TraceWordsAreChecked := by
  intro word node far
  rw [readTraceWord_eq_some_iff, validNode_iff_of_lt (word.extractLsb' 16 16).isLt]
  constructor
  · rintro ⟨⟨⟨hzero, hones⟩, hreserved, htype, hcheck⟩, rfl, rfl⟩
    exact ⟨rfl, rfl, hzero, hones, hreserved, htype, hcheck⟩
  · rintro ⟨rfl, rfl, hzero, hones, hreserved, htype, hcheck⟩
    exact ⟨⟨⟨hzero, hones⟩, hreserved, htype, hcheck⟩, rfl, rfl⟩

end Sys2Proof.Machine

namespace Sys2Proof.Machine

variable (s : State)

/-! Making a kind due, and the end of isolation, happen within an event: the event number stands. -/

@[simp] theorem State.makeDue_events (p : Fin 10) (k : FrameKind) (c : Fin 3) : (s.makeDue p k c).events = s.events := by
  rw [s.makeDue_eq, State.setEntry_events]

@[simp] theorem State.makeAdvertDue_events (c : Fin 3) : (s.makeAdvertDue c).events = s.events :=
  s.makeDue_events advertPlace .advert c

@[simp] theorem State.contentReport_events : s.contentReport.events = s.events := by
  unfold State.contentReport
  split
  · rfl
  · dsimp only
    split
    · exact State.makeAdvertDue_events _ 1
    · rfl

@[simp] theorem State.endIsolation_events : s.endIsolation.events = s.events := by
  unfold State.endIsolation
  split
  · rw [State.contentReport_events, s.setIsolated_eq]
  · rfl

/-- A good frame takes one event, whether or not it ends isolation. -/
@[simp] theorem State.heard_events : s.heard.events = s.events + 1 := State.endIsolation_events _

/-! A SOLICIT at the ADS (R63). -/

variable {s}

/-- In an empty place, outside MUTED, a kind made due is a new entry (R3). -/
theorem State.makeDue_of_entry_eq_none {p : Fin 10} (running : s.sc.station ≠ .muted) (empty : s.entry p = none)
    (k : FrameKind) (c : Fin 3) : s.makeDue p k c = s.setEntry p (some (s.newEntry k c)) := by
  rw [s.makeDue_eq, State.dueEntry, if_neg running, empty]

/-- Where R63 asks for a pull-in ADVERT and place 8 is empty, the ADVERT is a new entry of class 2. -/
theorem State.solicitFrame_pullIn (operating : s.sc.station = .operating) (noWait : s.ads.postDropWait = false)
    (debt : s.ads.debt ≠ -8) (absent : s.ads.entryPresent = false) (empty : s.entry 8 = none) :
    s.solicitFrame = { s with
      ads.entryPresent := true
      lac.due := s.lac.due.set 8 (some ⟨.advert, 2, s.events, 0, none, none, false⟩) } := by
  have running : s.sc.station ≠ .muted := by simp [operating]
  rw [State.solicitFrame, if_pos ⟨operating, noWait, debt, absent⟩, State.makeAdvertDue,
    State.makeDue_of_entry_eq_none (p := advertPlace) running empty]
  rfl

/-- In every other row of R63 the SOLICIT changes nothing. -/
theorem State.solicitFrame_ignored (h : s.sc.station ≠ .operating ∨ s.ads.postDropWait = true ∨ s.ads.debt = -8 ∨
    s.ads.entryPresent = true) : s.solicitFrame = s := by
  refine if_neg ?_
  rintro ⟨operating, noWait, debt, absent⟩
  rcases h with other | wait | least | present
  · exact other operating
  · simp [noWait] at wait
  · exact debt least
  · simp [absent] at present

/-- The receipt of a SOLICIT reaches the ADS, its body unread. -/
theorem exec_solicitReceived {origin : BitVec 16} {body : List Byte} (h : s.hears origin body) :
    exec (.solicitReceived origin body) s = .next s.heard.solicitFrame :=
  congrArg _ (State.receiveFrame_heard h .solicit)

/-- Settles O35: the ADS acts by the row of R63 that the state after the end of isolation is in. -/
theorem solicitIsAnswered : Obligations.SolicitIsAnswered := by
  intro origin body s h
  rw [exec_solicitReceived h]
  constructor
  · intro operating noWait debt absent empty
    rw [State.solicitFrame_pullIn operating noWait debt absent empty, ← s.heard_events]
  · intro ignored
    rw [State.solicitFrame_ignored ignored]

end Sys2Proof.Machine

namespace Sys2Proof.Machine

variable (s : State)

/-! A profile written in the event of its request (R74, R79). -/

/-- Under an index that names a profile, the write takes its place in the table. -/
theorem State.setProfile_eq_set {i : Nat} (h : i < 16) (p : Profile) :
    s.setProfile i p = { s with pf.profiles := s.pf.profiles.set i p } := by
  have inBounds : s.pf.profiles.setIfInBounds i p = s.pf.profiles.set i p :=
    Vector.ext fun j hj => by rw [Vector.getElem_setIfInBounds hj, Vector.getElem_set]
  rw [State.setProfile, inBounds]

theorem profileAt_eq_getElem (profiles : Vector Profile 16) {i : Nat} (h : i < 16) :
    profileAt profiles i = profiles[i] := by
  simp [profileAt, Vector.getD, h]

/-- An accepted request that writes a profile and completes is answered over the written table. -/
theorem State.accepted_setProfile_post (i : Nat) (p : Profile) (c : Completion) :
    (s.accepted.setProfile i p).post c = (s.setProfile i p).answered c :=
  (s.setProfile i p).post_accepted c

/-! PROFILE (R74). -/

/-- The scale is stored as sent unless it lies outside 1 to 1023. -/
theorem readProfile_scale_eq_iff (scale pass add drop : BitVec 16) :
    (readProfile scale pass add drop).scale = scale.toNat ↔ ¬(scale = 0#16 ∨ 1023 < scale.toNat) := by
  have zero : scale = 0#16 ↔ scale.toNat = 0 := BitVec.toNat_inj.symm
  simp only [zero, readProfile, clampTo]
  omega

variable {s}

theorem exec_profile (h : s.takes) (tag : Tag) (index scale pass add drop : BitVec 16) :
    exec (.profile tag index scale pass add drop) s = .next (s.accepted.ownProfile tag index scale pass add drop) :=
  congrArg _ (s.request_taken _ h)

theorem State.ownProfile_of_not_configured (station : s.sc.station ≠ .configured) (tag : Tag)
    (index scale pass add drop : BitVec 16) :
    s.ownProfile tag index scale pass add drop = s.post (.plain .profile tag .sequence) :=
  if_pos station

theorem State.ownProfile_of_index_out (station : s.sc.station = .configured) {index : BitVec 16}
    (out : 15 < index.toNat) (tag : Tag) (scale pass add drop : BitVec 16) :
    s.ownProfile tag index scale pass add drop = s.post (.range .profile tag) := by
  rw [State.ownProfile, if_neg (not_not_intro station), if_pos out]

theorem State.ownProfile_of_index_lt (station : s.sc.station = .configured) {index : BitVec 16}
    (h : index.toNat < 16) (tag : Tag) (scale pass add drop : BitVec 16) :
    s.ownProfile tag index scale pass add drop =
      (s.setProfile index.toNat (readProfile scale pass add drop)).post
        (.carrying .profile tag (if scale = 0#16 ∨ 1023 < scale.toNat then .clamped else .ok)
          (.profile index.toNat (readProfile scale pass add drop))) := by
  have named : ¬15 < index.toNat := by omega
  simp only [State.ownProfile, if_neg (not_not_intro station), if_neg named, readProfile_scale_eq_iff, ite_not]

/-! TRIM (R79, R80). -/

/-- Within the limits, a step held at the limit is the step cut off at the limit. -/
theorem stepTrim_eq_clamped {t : Int} (lo : -8 ≤ t) (hi : t ≤ 7) (f : Nat) :
    stepTrim f t = if f = 1 then min 7 (t + 1) else if f = 2 then max (-8) (t - 1) else t := by
  have up : (if t < 7 then t + 1 else t) = min 7 (t + 1) := by omega
  have down : (if -8 < t then t - 1 else t) = max (-8) (t - 1) := by omega
  rw [stepTrim, up, down]

/-- Within the limits, the step not taken is UP from +7 or DOWN from -8. -/
theorem stepBlocked_iff {t : Int} (lo : -8 ≤ t) (hi : t ≤ 7) (f : Nat) :
    stepBlocked f t = true ↔ f = 1 ∧ t = 7 ∨ f = 2 ∧ t = -8 := by
  have top : 7 ≤ t ↔ t = 7 := by omega
  have bottom : t ≤ -8 ↔ t = -8 := by omega
  simp only [stepBlocked, Bool.or_eq_true, Bool.and_eq_true, beq_iff_eq, decide_eq_true_eq, top, bottom]

theorem exec_trim (h : s.takes) (tag : Tag) (index fields : Byte) :
    exec (.trim tag index fields) s = .next (s.accepted.ownTrim tag index fields) :=
  congrArg _ (s.request_taken _ h)

theorem State.ownTrim_of_not_taken (station : s.sc.station = .unconfigured ∨ s.sc.station = .identified) (tag : Tag)
    (index fields : Byte) : s.ownTrim tag index fields = s.post (.plain .trim tag .sequence) :=
  if_pos station

theorem State.ownTrim_of_out_of_range (station : ¬(s.sc.station = .unconfigured ∨ s.sc.station = .identified))
    {index fields : Byte} (out : 15 < index.toNat ∨ trimNoiseField fields = 3 ∨ trimPenaltyField fields = 3)
    (tag : Tag) : s.ownTrim tag index fields = s.post (.range .trim tag) := by
  rw [State.ownTrim, if_neg station, if_pos out]

/-- A TRIM that passes the check steps the named profile, and it is CLAMPED if either field's step was not taken. -/
theorem State.ownTrim_of_in_range (station : ¬(s.sc.station = .unconfigured ∨ s.sc.station = .identified))
    {index fields : Byte} (h : index.toNat < 16) (noise : trimNoiseField fields ≠ 3)
    (penalty : trimPenaltyField fields ≠ 3) {p : Profile} (named : p = s.pf.profiles[index.toNat]) (tag : Tag) :
    s.ownTrim tag index fields =
      (s.setProfile index.toNat (p.stepped fields)).post
        (.carrying .trim tag
          (if stepBlocked (trimNoiseField fields) p.noiseTrim = true
              ∨ stepBlocked (trimPenaltyField fields) p.penaltyTrim = true then .clamped else .ok)
          (trimItems index.toNat (p.stepped fields))) := by
  have passes : ¬(15 < index.toNat ∨ trimNoiseField fields = 3 ∨ trimPenaltyField fields = 3) := by omega
  simp only [State.ownTrim, if_neg station, if_neg passes, profileAt_eq_getElem _ h, ← named, Bool.or_eq_true]

/-- Settles O13: each request is accepted, and its owner then decides by the station state and by the ranges of its
fields; the range of the trims turns the model's limit tests into the statement's bounds. -/
theorem profilesAreWrittenAndTrimmed : Obligations.ProfilesAreWrittenAndTrimmed := by
  refine ⟨?profileSequence, ?trimSequence, ?profileRefused, ?profileWritten, ?trimRefused, ?trimStepped⟩
  case profileSequence =>
    intro tag index scale pass add drop s takes station
    rw [exec_profile takes, State.ownProfile_of_not_configured (s := s.accepted) station, State.post_accepted]
    rfl
  case trimSequence =>
    intro tag index fields s takes station
    rw [exec_trim takes, State.ownTrim_of_not_taken (s := s.accepted) station, State.post_accepted]
    rfl
  case profileRefused =>
    intro tag index scale pass add drop s takes station out
    rw [exec_profile takes, State.ownProfile_of_index_out (s := s.accepted) station out, State.post_accepted]
    rfl
  case profileWritten =>
    intro tag index scale pass add drop s takes station h
    rw [exec_profile takes, State.ownProfile_of_index_lt (s := s.accepted) station h, State.accepted_setProfile_post,
      State.setProfile_eq_set s h]
    rfl
  case trimRefused =>
    intro tag index fields s takes configured identified out
    rw [exec_trim takes, State.ownTrim_of_out_of_range (s := s.accepted) (not_or.2 ⟨configured, identified⟩) out,
      State.post_accepted]
    rfl
  case trimStepped =>
    intro tag index fields p q s takes configured identified h noise penalty named inRange stepped
    obtain ⟨-, -, -, -, -, noiseLo, noiseHi, penaltyLo, penaltyHi⟩ := inRange
    have q_eq : p.stepped fields = q := by
      rw [stepped, Profile.stepped, stepTrim_eq_clamped noiseLo noiseHi, stepTrim_eq_clamped penaltyLo penaltyHi]
      rfl
    rw [exec_trim takes,
      State.ownTrim_of_in_range (s := s.accepted) (not_or.2 ⟨configured, identified⟩) h noise penalty named,
      State.accepted_setProfile_post, q_eq, State.setProfile_eq_set s h]
    simp only [stepBlocked_iff noiseLo noiseHi, stepBlocked_iff penaltyLo penaltyHi, or_assoc]
    rfl

end Sys2Proof.Machine

namespace Sys2Proof.Machine

variable {s : State}

/-! The block table read by key (R86). -/

theorem State.lookup_block_of_mem (ok : s.BlocksOk) {b : Block} (m : b ∈ s.hu.blocks) :
    Table.lookup Block.code b.key.code s.hu.blocks = some b :=
  (Table.lookup_eq_some ok.sorted).2 ⟨m, rfl⟩

/-- Keys of the table have ports of at most 15, so a key with a one-byte port shares its number with no other key. -/
theorem State.BlocksOk.code_eq_iff (ok : s.BlocksOk) {b : Block} (m : b ∈ s.hu.blocks) {k : LinkKey}
    (port : k.port < 256) : b.code = k.code ↔ b.key = k := by
  have ported := LinkKey.valid_port (ok.keys b m)
  exact ⟨LinkKey.code_inj (by omega) port, congrArg LinkKey.code⟩

theorem State.lookup_block_eq_none (ok : s.BlocksOk) {k : LinkKey} (port : k.port < 256)
    (absent : ∀ b ∈ s.hu.blocks, b.key ≠ k) : Table.lookup Block.code k.code s.hu.blocks = none :=
  Table.lookup_eq_none.2 fun b m code => absent b m ((ok.code_eq_iff m port).1 code)

theorem State.blockMask_of_mem (ok : s.BlocksOk) {b : Block} (m : b ∈ s.hu.blocks) :
    s.blockMask b.key = b.mask := by
  rw [State.blockMask, State.lookup_block_of_mem ok m]
  rfl

theorem State.blockMask_of_absent (ok : s.BlocksOk) {k : LinkKey} (port : k.port < 256)
    (absent : ∀ b ∈ s.hu.blocks, b.key ≠ k) : s.blockMask k = 0 := by
  rw [State.blockMask, State.lookup_block_eq_none ok port absent]
  rfl

/-- A slot is free of blocks on a key exactly when the entry of the key, if any, leaves it clear. -/
theorem State.blockMask_clear_iff (ok : s.BlocksOk) {k : LinkKey} (port : k.port < 256) (n : Nat) :
    (s.blockMask k).getLsbD n = false ↔ ∀ b ∈ s.hu.blocks, b.key = k → b.mask.getLsbD n = false := by
  by_cases entry : ∃ b ∈ s.hu.blocks, b.key = k
  · obtain ⟨b, m, rfl⟩ := entry
    rw [State.blockMask_of_mem ok m]
    constructor
    · intro clear x mx same
      rwa [ok.sorted.inj mx m (congrArg LinkKey.code same)]
    · exact fun clear => clear b m rfl
  · have absent : ∀ b ∈ s.hu.blocks, b.key ≠ k := fun b m same => entry ⟨b, m, same⟩
    rw [State.blockMask_of_absent ok port absent]
    exact ⟨fun _ b m same => absurd same (absent b m), fun _ => BitVec.getLsbD_zero⟩

/-! Usability of a window (R85). -/

theorem Hold.claims_eq_false_iff (h : Hold) (k : LinkKey) (start width : Nat) :
    h.claims k start width = false ↔
      ∀ n, start ≤ n → n < start + width → k ∈ h.links → ¬(h.start ≤ n ∧ n < h.start + h.width) := by
  rw [Bool.eq_false_iff, Hold.claims, ne_eq, Bool.and_eq_true, List.contains_iff_mem, windowsMeet_iff]
  constructor
  · rintro unclaimed n lo hi listed ⟨lo', hi'⟩
    exact unclaimed ⟨listed, n, lo', hi', lo, hi⟩
  · rintro free ⟨listed, n, lo', hi', lo, hi⟩
    exact free n lo hi listed ⟨lo', hi'⟩

/-- A slot map misses a window exactly when it has none of the window's slots. -/
theorem misses_window_iff (x : SlotMap) {start width : Nat} (fits : start + width ≤ 64) :
    (x &&& windowMask start width == 0) = true ↔ ∀ n, start ≤ n → n < start + width → x.getLsbD n = false := by
  simp only [and_eq_zero_iff, windowMask_getLsbD _ _ _ fits, decide_eq_true_eq, not_and, ← Bool.not_eq_true]
  exact ⟨fun missed n lo hi lit => missed n lit lo hi, fun clear n lit lo hi => clear n lo hi lit⟩

/-- Usability, slot by slot. -/
theorem State.usable_iff (ok : s.BlocksOk) (l : LinkRecord) (valid : l.key.valid = true) {start width : Nat}
    (fits : start + width ≤ 64) : s.usable l start width = true ↔ ∀ n, start ≤ n → n < start + width →
      l.used.getLsbD n = false ∧ (∀ b ∈ s.hu.blocks, b.key = l.key → b.mask.getLsbD n = false) ∧
      ∀ h ∈ s.hu.holds, l.key ∈ h.links → ¬(h.start ≤ n ∧ n < h.start + h.width) := by
  have port : l.key.port < 256 := lt_of_le_of_lt (LinkKey.valid_port valid) (by decide)
  simp only [State.usable, Bool.and_eq_true, misses_window_iff _ fits, State.blockMask_clear_iff ok port,
    List.all_eq_true, Bool.not_eq_true', Hold.claims_eq_false_iff]
  constructor
  · rintro ⟨⟨unused, unblocked⟩, unheld⟩ n lo hi
    exact ⟨unused n lo hi, unblocked n lo hi, fun h m => unheld h m n lo hi⟩
  · intro free
    exact ⟨⟨fun n lo hi => (free n lo hi).1, fun n lo hi => (free n lo hi).2.1⟩,
      fun h m n lo hi => (free n lo hi).2.2 h m⟩

/-! The rank and the overlap of holds (R89). -/

/-- The rank is lexicographic: established before not, then the higher priority, the lower origin, the lower number. -/
theorem Hold.outranks_iff (a b : Hold) : a.outranks b = true ↔
    (a.established = true ∧ b.established = false) ∨
    (a.established = b.established ∧ (b.priority < a.priority ∨ (a.priority = b.priority ∧
      (a.origin < b.origin ∨ (a.origin = b.origin ∧ a.number.toNat < b.number.toNat))))) := by
  unfold Hold.outranks
  split
  case isTrue differ =>
    cases ha : a.established <;> cases hb : b.established <;> simp_all
  case isFalse same =>
    rw [bne_iff_ne, not_not] at same
    rw [or_iff_right (by simp [same]), and_iff_right same]
    split
    case isTrue => rw [decide_eq_true_eq]; omega
    case isFalse => split <;> rw [decide_eq_true_eq] <;> omega

/-- The rank with its first test as a number, so that the four tests are one comparison of numbers after another. -/
theorem Hold.outranks_iff_lex (a b : Hold) : a.outranks b = true ↔
    b.established.toNat < a.established.toNat ∨ (a.established.toNat = b.established.toNat ∧
      (b.priority < a.priority ∨ (a.priority = b.priority ∧
        (a.origin < b.origin ∨ (a.origin = b.origin ∧ a.number.toNat < b.number.toNat))))) := by
  rw [Hold.outranks_iff]
  cases a.established <;> cases b.established <;> simp

/-- Of two holds with different keys, one outranks the other. -/
theorem Hold.outranks_iff_not_outranks {a b : Hold} (differ : a.origin ≠ b.origin ∨ a.number ≠ b.number) :
    a.outranks b = true ↔ b.outranks a = false := by
  rw [ne_eq a.number, ← BitVec.toNat_inj] at differ
  rw [← Bool.not_eq_true, Hold.outranks_iff_lex, Hold.outranks_iff_lex]
  omega

theorem Hold.outranks_trans {a b c : Hold} (ab : a.outranks b = true) (bc : b.outranks c = true) :
    a.outranks c = true := by
  rw [Hold.outranks_iff_lex] at ab bc ⊢
  omega

theorem Hold.overlaps_iff (a b : Hold) : a.overlaps b = true ↔ (∃ k, k ∈ a.links ∧ k ∈ b.links) ∧
    ∃ n, a.start ≤ n ∧ n < a.start + a.width ∧ b.start ≤ n ∧ n < b.start + b.width := by
  simp only [Hold.overlaps, Bool.and_eq_true, List.any_eq_true, List.contains_iff_mem, windowsMeet_iff]

/-- Settles O45: usability slot by slot, and the rank as a lexicographic order. -/
theorem usabilityAndRank : Obligations.UsabilityAndRank :=
  ⟨fun l _ _ _ ok valid fits => State.usable_iff ok l valid fits, Hold.outranks_iff,
    fun _ _ => Hold.outranks_iff_not_outranks, fun _ _ _ => Hold.outranks_trans, Hold.overlaps_iff⟩

end Sys2Proof.Machine

namespace Sys2Proof.Machine

variable {s : State}

/-! BLOCK (R86, R87). -/

theorem badKey_iff (k : LinkKey) : badKey k = true ↔ k.node = 0 ∨ k.node = 65535 ∨ 15 < k.port := by
  simp [badKey, badNode, or_assoc]

/-- A record put in its own place changes nothing. -/
theorem Table.put_of_mem {α : Type} {key : α → Nat} {l : List α} (h : Table.Sorted key l) {x : α} (m : x ∈ l) :
    Table.put key x l = l := by
  have own : ∀ z ∈ l, (if key z = key x then x else z) = z := fun z hz => by
    split
    · exact (h.inj hz m ‹_›).symm
    · rfl
  rw [Table.put_eq_map h m rfl, List.map_congr_left own, List.map_id']

/-- The entry of a key rewritten, and dropped where its mask is empty, is the model's erasing or writing of it. -/
theorem State.BlocksOk.rewrite_entry (ok : s.BlocksOk) {b : Block} (m : b ∈ s.hu.blocks) (mask : SlotMap) :
    (s.hu.blocks.map (fun x : Block => if x.key = b.key then ⟨b.key, mask⟩ else x)).filter
        (fun x : Block => x.mask != 0) =
      if mask = 0 then Table.erase Block.code b.key.code s.hu.blocks
      else Table.put Block.code ⟨b.key, mask⟩ s.hu.blocks := by
  have port : b.key.port < 256 := lt_of_le_of_lt (LinkKey.valid_port (ok.keys b m)) (by decide)
  split
  case isTrue empty =>
    have kept : ∀ x ∈ s.hu.blocks, ((fun x : Block => x.mask != 0) ∘
        fun x : Block => if x.key = b.key then ⟨b.key, mask⟩ else x) x = (x.code != b.key.code) := fun x mx => by
      rw [Function.comp_apply]
      split
      case isTrue same => simp [empty, Block.code, same]
      case isFalse other =>
        rw [bne_iff_ne.2 (ok.marked x mx), bne_iff_ne.2 (mt (ok.code_eq_iff mx port).1 other)]
    rw [List.filter_map, List.filter_congr kept, Table.erase]
    refine (List.map_congr_left fun x mx => if_neg fun same => ?_).trans (List.map_id' _)
    simp [Block.code, same] at mx
  case isFalse filled =>
    have marked : ∀ x ∈ s.hu.blocks.map (fun x : Block => if x.key = b.key then ⟨b.key, mask⟩ else x),
        (x.mask != 0) = true := fun x mx => by
      obtain ⟨y, my, rfl⟩ := List.mem_map.1 mx
      split
      · exact bne_iff_ne.2 filled
      · exact bne_iff_ne.2 (ok.marked y my)
    rw [List.filter_eq_self.2 marked, Table.put_eq_map (x := ⟨b.key, mask⟩) ok.sorted m rfl]
    exact List.map_congr_left fun x mx => if_congr (ok.code_eq_iff mx port).symm rfl rfl

/-- The entry of a key takes a new mask (R87); only a change counts. -/
theorem State.setBlock_of_mem (ok : s.BlocksOk) {b : Block} (m : b ∈ s.hu.blocks) (mask : SlotMap) :
    s.setBlock b.key mask = { s with
      hu.blocks := (s.hu.blocks.map (fun x : Block => if x.key = b.key then ⟨b.key, mask⟩ else x)).filter
        (fun x : Block => x.mask != 0)
      tv.counter := s.tv.counter + (if mask = b.mask then 0#32 else 1#32) } := by
  rw [ok.rewrite_entry m, State.setBlock, State.blockMask_of_mem ok m]
  split
  case isTrue same =>
    subst same
    rw [if_pos rfl, if_neg (ok.marked b m), Table.put_of_mem ok.sorted m, BitVec.add_zero]
  case isFalse changed =>
    rw [if_neg (Ne.symm changed)]
    rfl

/-- A key without an entry gets one (R87). -/
theorem State.setBlock_of_absent (ok : s.BlocksOk) {k : LinkKey} (port : k.port < 256)
    (absent : ∀ b ∈ s.hu.blocks, b.key ≠ k) {mask : SlotMap} (filled : mask ≠ 0) :
    s.setBlock k mask = { s with
      hu.blocks := insertSorted Block.code ⟨k, mask⟩ s.hu.blocks
      tv.counter := s.tv.counter + 1#32 } := by
  rw [State.setBlock, State.blockMask_of_absent ok port absent, if_neg filled.symm, if_neg filled,
    Table.put_eq_insertSorted ok.sorted]
  rfl

/-- The block table is written alike before the acceptance and after it, so a BLOCK that completes is the answer over
the written table. -/
theorem State.accepted_setBlock_post (k : LinkKey) (mask : SlotMap) (done : Completion) :
    (s.accepted.setBlock k mask).post done = (s.setBlock k mask).answered done := by
  have alike : s.accepted.setBlock k mask = (s.setBlock k mask).accepted := by
    rw [State.setBlock, State.setBlock, apply_ite State.accepted]
    rfl
  rw [alike, State.post_accepted]

section
variable (tag : Tag) (operation : Byte) (mask : SlotMap)

theorem exec_block (h : s.takes) {node : BitVec 16} {port : Byte} {c : Instr} {k : LinkKey}
    (key : k = ⟨node.toNat, port.toNat⟩)
    (row : c = .blockSet tag node port operation mask ∨ c = .blockClear tag node port operation mask) :
    exec c s = .next (s.accepted.ownBlock tag k operation mask) := by
  subst key
  obtain rfl | rfl := row <;> exact congrArg _ (s.request_taken _ h)

theorem State.ownBlock_of_unconfigured (station : s.sc.station = .unconfigured) (k : LinkKey) :
    s.ownBlock tag k operation mask = s.post (.plain .block tag .sequence) :=
  if_pos station

theorem State.ownBlock_of_out_of_range (station : s.sc.station ≠ .unconfigured) {k : LinkKey}
    (out : badKey k = true ∨ (operation ≠ 0 ∧ operation ≠ 1)) :
    s.ownBlock tag k operation mask = s.post (.range .block tag) := by
  rw [State.ownBlock, if_neg station, if_pos out]

theorem State.ownBlock_of_in_range (station : s.sc.station ≠ .unconfigured) {k : LinkKey} (good : badKey k ≠ true)
    (known : operation = 0 ∨ operation = 1) :
    s.ownBlock tag k operation mask = s.applyBlock tag k operation mask := by
  rw [State.ownBlock, if_neg station, if_neg (by tauto)]

end

section
variable {operation : Byte} {k : LinkKey} {mask stands : SlotMap}
  (result : stands = if operation = 0 then s.blockMask k ||| mask else s.blockMask k &&& ~~~mask) (tag : Tag)
include result

/-- A BLOCK that needs no new entry, or finds room for one, leaves the mask as its operation makes it (R87). -/
theorem State.applyBlock_of_room (room : (Table.lookup Block.code k.code s.hu.blocks).isSome = true ∨ stands = 0 ∨
    s.hu.blocks.length < 32) :
    s.applyBlock tag k operation mask = (s.setBlock k stands).post (.carrying .block tag .ok (.block k stands)) := by
  simp only [State.applyBlock, ← result]
  refine if_neg fun full => ?_
  simp only [Bool.and_eq_true, Bool.not_eq_true', bne_iff_ne, decide_eq_true_eq] at full
  obtain ⟨⟨unknown, filled⟩, crowded⟩ := full
  obtain known | empty | room := room
  · exact Bool.false_ne_true (unknown.symm.trans known)
  · exact filled empty
  · exact absurd crowded (Nat.not_le.2 room)

/-- A BLOCK that needs a new entry in a full table does nothing (R87). -/
theorem State.applyBlock_of_full (unknown : Table.lookup Block.code k.code s.hu.blocks = none) (filled : stands ≠ 0)
    (full : s.hu.blocks.length = 32) :
    s.applyBlock tag k operation mask = s.post (.plain .block tag .tableFull) := by
  simp only [State.applyBlock, ← result]
  refine if_pos ?_
  rw [unknown, bne_iff_ne.2 filled, full]
  rfl

end

theorem State.setBlock_unchanged {k : LinkKey} {mask : SlotMap} (stood : s.blockMask k = mask) :
    s.setBlock k mask = s :=
  if_pos stood

/-- Settles O46: the request is accepted, its owner decides by the station state and the ranges, and what it does to the
table turns on the key's entry. -/
theorem blockRequestsSetAndClear : Obligations.BlockRequestsSetAndClear := by
  intro tag node port operation mask c k s takes ok key row
  rw [exec_block tag operation mask takes key row]
  refine ⟨?sequence, ?range, fun station node0 node65535 port15 => ?taken⟩
  case sequence =>
    intro station
    rw [State.ownBlock_of_unconfigured (s := s.accepted) _ _ _ station, State.post_accepted]
    rfl
  case range =>
    intro station out
    have bad : badKey k = true ∨ (operation ≠ 0 ∧ operation ≠ 1) := by
      rw [badKey_iff, or_assoc, or_assoc]
      exact out
    rw [State.ownBlock_of_out_of_range (s := s.accepted) _ _ _ station bad, State.post_accepted]
    rfl
  case taken =>
    have good : badKey k ≠ true := by
      rw [ne_eq, badKey_iff]
      omega
    have applied := State.ownBlock_of_in_range (s := s.accepted) tag operation mask station good
    have byte : k.port < 256 := by omega
    refine ⟨?known, fun absent => ?unknown⟩
    case known =>
      rintro b m rfl listed stands result
      rw [← State.blockMask_of_mem ok m] at result
      have known : (Table.lookup Block.code b.key.code s.hu.blocks).isSome = true := by
        rw [State.lookup_block_of_mem ok m]
        rfl
      rw [applied listed, State.applyBlock_of_room (s := s.accepted) result tag (.inl known),
        State.accepted_setBlock_post, State.setBlock_of_mem ok m]
      rfl
    case unknown =>
      have noEntry := State.lookup_block_eq_none ok byte absent
      have noMask := State.blockMask_of_absent ok byte absent
      have written : mask = if (0#8 : Byte) = 0 then s.blockMask k ||| mask else s.blockMask k &&& ~~~mask := by
        simp [noMask]
      refine ⟨?unchanged, ?entered, ?full⟩
      case unchanged =>
        intro idle
        have listed : operation = 0 ∨ operation = 1 := idle.imp_left And.left
        have result : 0 = if operation = 0 then s.blockMask k ||| mask else s.blockMask k &&& ~~~mask := by
          obtain ⟨rfl, rfl⟩ | rfl := idle <;> simp [noMask]
        rw [applied listed, State.applyBlock_of_room (s := s.accepted) result tag (.inr (.inl rfl)),
          State.accepted_setBlock_post, State.setBlock_unchanged noMask]
        rfl
      case entered =>
        rintro rfl filled room
        rw [applied (.inl rfl), State.applyBlock_of_room (s := s.accepted) written tag (.inr (.inr room)),
          State.accepted_setBlock_post, State.setBlock_of_absent ok byte absent filled]
        rfl
      case full =>
        rintro rfl filled full
        rw [applied (.inl rfl), State.applyBlock_of_full (s := s.accepted) written tag noEntry filled full,
          State.post_accepted]
        rfl

end Sys2Proof.Machine

namespace Sys2Proof.Machine

variable {s : State}

/-! HOLD COMMIT and HOLD RELEASE at their owner (R98, R100): the station state, then the slot of the number. -/

/-- A request that acts on the slot of a hold number. -/
def State.atSlotOf (kind : RequestKind) (tag : Tag) (n : Byte) (act : Fin 8 → State → State) (s : State) : State :=
  s.whenJoined kind tag fun s =>
    match s.findSlot n with
    | some i => act i s
    | none => s.post (.plain kind tag .notFound)

theorem exec_holdCommit (h : s.takes) (tag : Tag) (n : Byte) :
    exec (.holdCommit tag n) s = .next (s.accepted.atSlotOf .holdCommit tag n (State.commitSlot tag)) :=
  congrArg _ (s.request_taken _ h)

theorem exec_holdRelease (h : s.takes) (tag : Tag) (n : Byte) :
    exec (.holdRelease tag n) s = .next (s.accepted.atSlotOf .holdRelease tag n (State.releaseSlot tag)) :=
  congrArg _ (s.request_taken _ h)

section
variable {kind : RequestKind} {tag : Tag} {n : Byte} {act : Fin 8 → State → State}

theorem State.atSlotOf_notJoined (notJoined : s.sc.station.joined = false) :
    s.accepted.atSlotOf kind tag n act = s.answered (.plain kind tag .notJoined) := by
  rw [← State.post_accepted]
  exact if_neg (by simp [notJoined])

theorem State.atSlotOf_joined (joined : s.sc.station.joined = true) : s.atSlotOf kind tag n act =
    ((s.findSlot n).map (fun i => act i s)).getD (s.post (.plain kind tag .notFound)) := by
  rw [State.atSlotOf, State.whenJoined, if_pos joined]
  cases s.findSlot n <;> rfl

theorem State.atSlotOf_absent (joined : s.sc.station.joined = true)
    (absent : ∀ i : Fin 8, (s.slot i).number ≠ some n) :
    s.accepted.atSlotOf kind tag n act = s.answered (.plain kind tag .notFound) := by
  rw [State.atSlotOf_joined (s := s.accepted) joined, State.findSlot_eq_none (s := s.accepted) absent,
    ← State.post_accepted]
  rfl

theorem State.atSlotOf_found (joined : s.sc.station.joined = true) {i : Fin 8}
    (number : (s.slot i).number = some n) (only : ∀ j : Fin 8, (s.slot j).number = some n → j = i) :
    s.accepted.atSlotOf kind tag n act = act i s.accepted := by
  rw [State.atSlotOf_joined (s := s.accepted) joined, State.findSlot_eq_some (s := s.accepted) number only]
  rfl

end

/-! HOLD COMMIT (R98). -/

section
variable {i : Fin 8} {n : BitVec 8} {t : Tag}

theorem State.commitSlot_pending (slot : s.slot i = .live (.pending none) n t) (tag : Tag) :
    s.commitSlot tag i = s.setSlot i (.live (.pending (some tag)) n t) := by
  rw [State.commitSlot, slot]

theorem State.commitSlot_announced {e : Nat} (slot : s.slot i = .live (.announced e none) n t) (tag : Tag) :
    s.commitSlot tag i = s.setSlot i (.live (.announced e (some tag)) n t) := by
  rw [State.commitSlot, slot]

theorem State.commitSlot_held (slot : s.slot i = .live .held n t) (tag : Tag) :
    s.commitSlot tag i = (s.setSlot i (.live (.committing tag) n t)).makeDue (holdPlace i) .commit 1 := by
  rw [State.commitSlot, slot]

/-- Where a HOLD COMMIT waits already, in whichever substate, a second one completes at once. -/
theorem State.commitSlot_waiting {sub : Substate} {waiting : Tag} (commit : sub.commitTag = some waiting)
    (slot : s.slot i = .live sub n t) (tag : Tag) :
    s.commitSlot tag i = s.post (.plain .holdCommit tag .inProgress) := by
  rw [State.commitSlot, slot]
  cases sub with
  | pending c => cases commit; rfl
  | announced e c => cases commit; rfl
  | committing c => rfl
  | held => cases commit
  | committed => cases commit

theorem State.commitSlot_committed (slot : s.slot i = .live .committed n t) (tag : Tag) :
    s.commitSlot tag i = s.post (.plain .holdCommit tag .ok) := by
  rw [State.commitSlot, slot]

/-- A hold that is over answers with its outcome, whether the slot still closes or waits for POLL. -/
theorem State.commitSlot_over {o : HoldOutcome}
    (slot : s.slot i = .ended n t o ∨ ∃ toEnded, s.slot i = .closing n t o toEnded) (tag : Tag) :
    s.commitSlot tag i = s.post (.carrying .holdCommit tag o.status (.holdNumber n)) := by
  obtain slot | ⟨toEnded, slot⟩ := slot <;> rw [State.commitSlot, slot]

/-- The number of a slot that is over. -/
theorem State.number_of_over {o : HoldOutcome}
    (slot : s.slot i = .ended n t o ∨ ∃ toEnded, s.slot i = .closing n t o toEnded) :
    (s.slot i).number = some n := by
  obtain slot | ⟨toEnded, slot⟩ := slot <;> rw [slot] <;> rfl

theorem State.number_of_live {sub : Substate} (slot : s.slot i = .live sub n t) : (s.slot i).number = some n := by
  rw [slot]
  rfl

/-- PENDING, ANNOUNCED and COMMITTING with a tag, as one case: a LIVE slot whose substate has a waiting tag. -/
theorem State.exists_waiting_substate {waiting : Tag} (slot : s.slot i = .live (.pending (some waiting)) n t ∨
    (∃ e, s.slot i = .live (.announced e (some waiting)) n t) ∨ s.slot i = .live (.committing waiting) n t) :
    ∃ sub, s.slot i = .live sub n t ∧ sub.commitTag = some waiting := by
  obtain slot | ⟨e, slot⟩ | slot := slot
  · exact ⟨_, slot, rfl⟩
  · exact ⟨_, slot, rfl⟩
  · exact ⟨_, slot, rfl⟩

end

/-- Settles O48: the request is accepted, its owner finds the one slot of the number, and R98's row of that slot's
state applies. -/
theorem holdCommitActsOnTheSlot : Obligations.HoldCommitActsOnTheSlot := by
  refine ⟨fun tag n s takes notJoined => by rw [exec_holdCommit takes, State.atSlotOf_notJoined notJoined]; rfl,
    fun tag n s takes joined => ?_⟩
  rw [exec_holdCommit takes]
  refine ⟨fun absent => congrArg _ (State.atSlotOf_absent joined absent), fun i t only => ?_⟩
  have found := fun number => State.atSlotOf_found (kind := .holdCommit) (tag := tag) (act := State.commitSlot tag)
    joined (i := i) number only
  refine ⟨fun slot => ?pending, fun e slot => ?announced, fun slot => ?held, ?waiting, fun slot => ?committed,
    fun o slot => ?finished⟩
  case pending =>
    rw [found (State.number_of_live slot), State.commitSlot_pending (s := s.accepted) slot]
    rfl
  case announced =>
    rw [found (State.number_of_live slot), State.commitSlot_announced (s := s.accepted) slot]
    rfl
  case held =>
    rw [found (State.number_of_live slot), State.commitSlot_held (s := s.accepted) slot]
    rfl
  case waiting =>
    rintro ⟨waiting, slot⟩
    obtain ⟨sub, slot, commit⟩ := State.exists_waiting_substate slot
    rw [found (State.number_of_live slot), State.commitSlot_waiting (s := s.accepted) commit slot, State.post_accepted]
    rfl
  case committed =>
    rw [found (State.number_of_live slot), State.commitSlot_committed (s := s.accepted) slot, State.post_accepted]
    rfl
  case finished =>
    rw [found (State.number_of_over slot), State.commitSlot_over (s := s.accepted) slot, State.post_accepted]
    rfl

end Sys2Proof.Machine

namespace Sys2Proof.Machine

variable {s : State}

/-! HOLD RELEASE (R100). -/

/-- The HOLD COMMIT that waits on a LIVE slot has completed RELEASED (R100). -/
def State.commitReleased (sub : Substate) (n : BitVec 8) (s : State) : State :=
  { s with
    clp.completions := s.clp.completions ++
      (sub.commitTag.map (fun c => (⟨.holdCommit, c, .released, .none, false, .holdNumber n⟩ : Completion))).toList
    clp.reservations := s.clp.reservations - sub.commitTag.toList.length }

/-- Making a kind due reads and writes nothing of the control link. -/
theorem State.post_makeDue (p : Fin 10) (k : FrameKind) (c : Fin 3) (done : Completion) :
    (s.makeDue p k c).post done = (s.post done).makeDue p k c := by
  rw [s.makeDue_eq, (s.post done).makeDue_eq]
  rfl

theorem State.HoldsOk.withdrawEntry (ok : s.HoldsOk) (p : Fin 10) : (s.withdrawEntry p).HoldsOk := by
  rw [s.withdrawEntry_eq]
  exact ok.of_eq rfl rfl rfl

@[simp] theorem State.withdrawEntry_slot (p : Fin 10) (i : Fin 8) : (s.withdrawEntry p).slot i = s.slot i := by
  rw [s.withdrawEntry_eq]
  rfl

section
variable {i : Fin 8} {n : BitVec 8} {t : Tag}

theorem State.endHold_released (ok : s.HoldsOk) {sub : Substate} (slot : s.slot i = .live sub n t) (x : Slot) :
    s.endHold i .released x = (s.commitReleased sub n).ownGone i n x :=
  s.endHold_live ok slot .released x

/-- Withdrawing the entry before the hold ends or after it is the same: the one writes the due list, the other the
hold unit, the control link and the view counter. -/
theorem State.endHold_released_withdrawEntry (ok : s.HoldsOk) {sub : Substate} (slot : s.slot i = .live sub n t)
    (p : Fin 10) (x : Slot) :
    (s.withdrawEntry p).endHold i .released x = ((s.commitReleased sub n).ownGone i n x).withdrawEntry p := by
  rw [State.endHold_released (ok.withdrawEntry p) (by rw [State.withdrawEntry_slot, slot]), s.withdrawEntry_eq,
    State.withdrawEntry_eq]
  rfl

theorem State.post_withdrawEntry (p : Fin 10) (done : Completion) :
    (s.withdrawEntry p).post done = (s.post done).withdrawEntry p := by
  rw [s.withdrawEntry_eq, (s.post done).withdrawEntry_eq]
  rfl

theorem State.withdrawEntry_answered (p : Fin 10) (done : Completion) :
    (s.answered done).withdrawEntry p = (s.withdrawEntry p).answered done := by
  rw [s.withdrawEntry_eq, (s.answered done).withdrawEntry_eq]
  rfl

/-- Of the request's own reservation and the waiting HOLD COMMIT's, each completion takes one. -/
theorem State.accepted_released_post (sub : Substate) (x : Slot) (done : Completion) :
    ((s.accepted.commitReleased sub n).ownGone i n x).post done =
      ((s.commitReleased sub n).ownGone i n x).answered done := by
  have reservations : s.clp.reservations + 1 - sub.commitTag.toList.length - 1 =
      s.clp.reservations - sub.commitTag.toList.length := by omega
  simp only [State.post, State.ownGone, State.commitReleased, State.accepted, State.answered, reservations]
  rfl

theorem State.releaseSlot_live {sub : Substate} (slot : s.slot i = .live sub n t) (tag : Tag) :
    s.releaseSlot tag i = (s.releaseLive i sub n t).post (.carrying .holdRelease tag .released (.holdNumber n)) := by
  rw [State.releaseSlot, slot]

theorem State.releaseSlot_over {o : HoldOutcome}
    (slot : s.slot i = .ended n t o ∨ ∃ toEnded, s.slot i = .closing n t o toEnded) (tag : Tag) :
    s.releaseSlot tag i = s.post (.carrying .holdRelease tag o.status (.holdNumber n)) := by
  obtain slot | ⟨toEnded, slot⟩ := slot <;> rw [State.releaseSlot, slot]

/-- A hold whose ANNOUNCE was sent or is on the line closes with a RELEASE due. -/
theorem State.releaseLive_announced {sub : Substate}
    (sent : (∀ commit, sub ≠ .pending commit) ∨ s.announceOnLine i = true) :
    s.releaseLive i sub n t =
      (s.endHold i .released (.closing n t .released false)).makeDue (holdPlace i) .release 1 := by
  cases sub with
  | pending c => exact if_pos (sent.resolve_left fun other => other c rfl)
  | announced | held | committing | committed => rfl

/-- A hold that no receiver can hold leaves its slot FREE and its ANNOUNCE withdrawn. -/
theorem State.releaseLive_unannounced {commit : Option Tag} (unsent : s.announceOnLine i = false) :
    s.releaseLive i (.pending commit) n t = (s.withdrawEntry (holdPlace i)).endHold i .released .free :=
  if_neg (by simp [unsent])

end

/-- Settles O49: the request is accepted, its owner finds the one slot of the number, and the hold in it, where it is
LIVE, ends with the waiting HOLD COMMIT's completion before the request's own. -/
theorem holdReleaseEndsTheHold : Obligations.HoldReleaseEndsTheHold := by
  refine ⟨fun tag n s takes notJoined => by rw [exec_holdRelease takes, State.atSlotOf_notJoined notJoined]; rfl,
    fun tag n s takes joined => ?_⟩
  rw [exec_holdRelease takes]
  refine ⟨fun absent => congrArg _ (State.atSlotOf_absent joined absent), fun i t only => ⟨?finished, ?live⟩⟩
  case finished =>
    intro o slot
    rw [State.atSlotOf_found joined (State.number_of_over slot) only,
      State.releaseSlot_over (s := s.accepted) slot, State.post_accepted]
    rfl
  case live =>
    rintro sub slot ok _ _ _ rfl rfl rfl
    have okAccepted : s.accepted.HoldsOk := ok.of_eq rfl rfl rfl
    rw [State.atSlotOf_found joined (State.number_of_live slot) only,
      State.releaseSlot_live (s := s.accepted) slot]
    constructor
    · intro sent
      rw [State.releaseLive_announced (s := s.accepted) sent, State.endHold_released okAccepted slot,
        State.post_makeDue, State.accepted_released_post]
      rfl
    · rintro ⟨commit, rfl⟩ unsent
      rw [State.releaseLive_unannounced (s := s.accepted) unsent,
        State.endHold_released_withdrawEntry okAccepted slot, State.post_withdrawEntry, State.accepted_released_post,
        State.withdrawEntry_answered]
      rfl

end Sys2Proof.Machine

namespace Sys2Proof.Machine

variable {s : State}

/-! IDENTITY (R170, R171). -/

/-- On a 16-bit wire the two node ids that R171 refuses are the least and the greatest word. -/
theorem badNode_toNat_iff (nodeId : BitVec 16) :
    badNode nodeId.toNat = true ↔ nodeId = 0#16 ∨ nodeId = 0xFFFF#16 := by
  simp only [badNode, Bool.or_eq_true, beq_iff_eq, ← BitVec.toNat_inj]
  rfl

theorem identityClamped_iff (profile ports : Byte) :
    identityClamped profile ports = true ↔ 15 < profile.toNat ∨ ports = 0#8 ∨ 16 < ports.toNat := by
  have zero : ports = 0#8 ↔ ports.toNat = 0 := BitVec.toNat_inj.symm
  simp only [identityClamped, Bool.or_eq_true, decide_eq_true_eq, beq_iff_eq, zero, or_assoc]

/-- What a request that R171 does not refuse writes, its completion aside: the identity, the station state and the
backoff generator. -/
def State.setIdentity (nodeId : BitVec 16) (v : Identity) (s : State) : State :=
  { s with sc.identity := some v, sc.station := .identified, lac.lfsr := nodeId }

theorem exec_identity (h : s.takes) (tag : Tag) (nodeId : BitVec 16) (profile transit ports : Byte) :
    exec (.identity tag nodeId profile transit ports) s =
      .next (s.accepted.ownIdentity tag nodeId profile transit ports) :=
  congrArg _ (s.request_taken _ h)

theorem State.ownIdentity_of_bad_node (station : s.sc.station = .unconfigured) {nodeId : BitVec 16}
    (bad : badNode nodeId.toNat = true) (tag : Tag) (profile transit ports : Byte) :
    s.ownIdentity tag nodeId profile transit ports = s.post (.range .identity tag) := by
  rw [State.ownIdentity, if_neg (not_not_intro station), if_pos bad]

theorem State.ownIdentity_of_good_node (station : s.sc.station = .unconfigured) {nodeId : BitVec 16}
    (good : ¬badNode nodeId.toNat = true) (tag : Tag) (profile transit ports : Byte) :
    s.ownIdentity tag nodeId profile transit ports =
      (s.setIdentity nodeId (readIdentity nodeId profile transit ports)).post
        (.carrying .identity tag (if 15 < profile.toNat ∨ ports = 0#8 ∨ 16 < ports.toNat then .clamped else .ok)
          (.identity (readIdentity nodeId profile transit ports))) := by
  simp only [State.ownIdentity, if_neg (not_not_intro station), if_neg good, identityClamped_iff]
  rfl

/-- An accepted request that writes the identity and completes is answered over the written state. -/
theorem State.accepted_setIdentity_post (nodeId : BitVec 16) (v : Identity) (c : Completion) :
    (s.accepted.setIdentity nodeId v).post c = (s.setIdentity nodeId v).answered c :=
  (s.setIdentity nodeId v).post_accepted c

/-! TIMING (R172). -/

/-- What TIMING in IDENTIFIED writes, its completion aside: the timing values and the station state. -/
def State.setTiming (v : Timing) (s : State) : State :=
  { s with sc.timing := some v, sc.station := .configured }

theorem exec_timing (h : s.takes) (tag : Tag) (ri listen watch contest hold commit budget ifg : BitVec 16) :
    exec (.timing tag ri listen watch contest hold commit budget ifg) s =
      .next (s.accepted.ownTiming tag (readTiming ri listen watch contest hold commit budget ifg)
        (rawTiming ri listen watch contest hold commit budget ifg)) :=
  congrArg _ (s.request_taken _ h)

theorem State.ownTiming_of_identified (station : s.sc.station = .identified) (tag : Tag) (v raw : Timing) :
    s.ownTiming tag v raw =
      (s.setTiming v).post (.carrying .timing tag (if v = raw then .ok else .clamped) (.timing v)) :=
  if_neg (not_not_intro station)

/-- An accepted request that writes the timing values and completes is answered over the written state. -/
theorem State.accepted_setTiming_post (v : Timing) (c : Completion) :
    (s.accepted.setTiming v).post c = (s.setTiming v).answered c :=
  (s.setTiming v).post_accepted c

/-- Settles O12: each request is accepted; the owner of IDENTITY then decides by the node id, and that of TIMING stores
what it read within the ranges of R172. -/
theorem configurationIsStored : Obligations.ConfigurationIsStored := by
  refine ⟨?identityStored, ?identityRefused, ?timingStored⟩
  case identityStored =>
    intro tag nodeId profile transit ports s takes station ne_zero ne_ones
    have good : ¬badNode nodeId.toNat = true := by
      rw [badNode_toNat_iff]
      exact not_or.2 ⟨ne_zero, ne_ones⟩
    rw [exec_identity takes, State.ownIdentity_of_good_node (s := s.accepted) station good,
      State.accepted_setIdentity_post]
    rfl
  case identityRefused =>
    intro tag nodeId profile transit ports s takes station bad
    rw [exec_identity takes, State.ownIdentity_of_bad_node (s := s.accepted) station ((badNode_toNat_iff nodeId).2 bad),
      State.post_accepted]
    rfl
  case timingStored =>
    intro tag ri listen watch contest hold commit budget ifg v s takes station read
    have stored : readTiming ri listen watch contest hold commit budget ifg = v := read.symm
    rw [exec_timing takes, State.ownTiming_of_identified (s := s.accepted) station, State.accepted_setTiming_post,
      stored]
    rfl

end Sys2Proof.Machine

namespace Sys2Proof.Machine

/-! What the work of the blocks within an event may write, and what it keeps. -/

/-- The state without what the work on the holds may write. -/
def State.outsideHolds (s : State) : State :=
  { s with
    lac.due := #v[none, none, none, none, none, none, none, none, s.lac.due[8], s.lac.due[9]]
    tv.counter := 0
    hu := { s.hu with holds := [], slots := Vector.replicate 8 .free, overflow := false }
    clp := { s.clp with completions := [], reservations := 0, marks := { s.clp.marks with overflow := false } } }

/-- The state without what making an ADVERT due, and the end of isolation, may write. -/
def State.outsideAdvert (s : State) : State :=
  { s with
    lac := { s.lac with due := s.lac.due.set 8 none, isolated := false }
    ads := { s.ads with mark := .clear, entryPresent := false }
    clp := { s.clp with marks := { s.clp.marks with isolated := false } } }

/-- The state without what the blocks may write within an event of a membership, the ADVERT's own registers aside. -/
def State.outsideBlocks (s : State) : State :=
  { s with
    lac := { s.lac with due := Vector.replicate 10 none, isolated := false }
    tv := Tv.atReset
    ads := { s.ads with mark := .clear, entryPresent := false }
    hu := { Hu.atReset with blocks := s.hu.blocks, lastNumber := s.hu.lastNumber }
    clp := { s.clp with completions := [], reservations := 0, marks := Conditions.none } }

/-- How many HOLD COMMITs wait in the slots. -/
def State.waitingCommits (s : State) : Nat := (allSlots.map (fun i => (s.slot i).waiting)).sum

/-- What the work of the blocks keeps of the due list, the slots and the completion accounts, in every station state:
the due list's form, no entry in MUTED, no withdraw ADVERT, no slot LIVE that was not, FREE slots FREE, and as many
reservations beyond the waiting HOLD COMMITs as before. -/
structure State.Orderly (s t : State) : Prop where
  dueOk : s.DueOk → t.DueOk
  quiet : s.sc.station = .muted → (∀ p : Fin 10, s.entry p = none) → ∀ p : Fin 10, t.entry p = none
  withdraws : (∀ p : Fin 10, (s.entry p).any Entry.withdraws = false) →
    ∀ p : Fin 10, (t.entry p).any Entry.withdraws = false
  live : ∀ i : Fin 8, (t.slot i).isLive = true → (s.slot i).isLive = true
  free : ∀ i : Fin 8, s.slot i = .free → t.slot i = .free
  accounts : ∀ k, s.clp.reservations = s.waitingCommits + k → t.clp.reservations = t.waitingCommits + k ∧
    t.clp.completions.length + t.clp.reservations = s.clp.completions.length + s.clp.reservations

/-- `t` comes from `s` by orderly work that leaves what `outside` reads. -/
structure State.Work (outside : State → State) (s t : State) : Prop where
  stands : outside t = outside s
  orderly : s.Orderly t

namespace State

variable {s t u : State} {outside : State → State}

theorem Orderly.trans (station : t.sc = s.sc) (h : s.Orderly t) (h' : t.Orderly u) : s.Orderly u where
  dueOk ok := h'.dueOk (h.dueOk ok)
  quiet muted none := h'.quiet (by rw [station]; exact muted) (h.quiet muted none)
  withdraws none := h'.withdraws (h.withdraws none)
  live i live := h.live i (h'.live i live)
  free i free := h'.free i (h.free i free)
  accounts k owed := by
    obtain ⟨owed', same⟩ := h.accounts k owed
    obtain ⟨owed'', same'⟩ := h'.accounts k owed'
    exact ⟨owed'', same'.trans same⟩

/-- Work that leaves the due list, the attempt, the slots and the completions is orderly. -/
theorem Orderly.of_eq (due : t.lac.due = s.lac.due) (attempt : t.lac.attempt = s.lac.attempt)
    (slots : t.hu.slots = s.hu.slots) (completions : t.clp.completions = s.clp.completions)
    (reservations : t.clp.reservations = s.clp.reservations) : s.Orderly t := by
  have entry (p : Fin 10) : t.entry p = s.entry p := by rw [State.entry, due]; rfl
  have slot (i : Fin 8) : t.slot i = s.slot i := by rw [State.slot, slots]; rfl
  have waiting : t.waitingCommits = s.waitingCommits := by simp only [State.waitingCommits, slot]
  constructor
  · intro ok
    exact ⟨fun p e => by rw [entry]; exact ok.entries p e, fun a => by simpa only [attempt, entry] using ok.attempt a⟩
  · intro _ none p
    rw [entry, none]
  · intro none p
    rw [entry, none]
  · intro i
    rw [slot]
    exact id
  · intro i
    rw [slot]
    exact id
  · intro k owed
    rw [reservations, completions, waiting]
    exact ⟨owed, rfl⟩

theorem Orderly.refl (s : State) : s.Orderly s := .of_eq rfl rfl rfl rfl rfl

theorem Work.refl (s : State) : Work outside s s := ⟨rfl, .refl s⟩

/-- The holds' work is among the work of the blocks. -/
theorem Work.blocks_of_holds (h : Work outsideHolds s t) : Work outsideBlocks s t where
  stands := show t.outsideHolds.outsideBlocks = s.outsideHolds.outsideBlocks by rw [h.stands]
  orderly := h.orderly

/-- Making ADVERTs due is among the work of the blocks. -/
theorem Work.blocks_of_advert (h : Work outsideAdvert s t) : Work outsideBlocks s t where
  stands := show t.outsideAdvert.outsideBlocks = s.outsideAdvert.outsideBlocks by rw [h.stands]
  orderly := h.orderly

section
variable (h : Work outsideBlocks s t)
include h

theorem Work.resetHeld : t.resetHeld = s.resetHeld := show t.outsideBlocks.resetHeld = s.outsideBlocks.resetHeld by rw [h.stands]
theorem Work.sc : t.sc = s.sc := show t.outsideBlocks.sc = s.outsideBlocks.sc by rw [h.stands]
theorem Work.psu : t.psu = s.psu := show t.outsideBlocks.psu = s.outsideBlocks.psu by rw [h.stands]
theorem Work.pt : t.pt = s.pt := show t.outsideBlocks.pt = s.outsideBlocks.pt by rw [h.stands]
theorem Work.pf : t.pf = s.pf := show t.outsideBlocks.pf = s.outsideBlocks.pf by rw [h.stands]
theorem Work.blocks : t.hu.blocks = s.hu.blocks :=
  show t.outsideBlocks.hu.blocks = s.outsideBlocks.hu.blocks by rw [h.stands]
theorem Work.attempt : t.lac.attempt = s.lac.attempt :=
  show t.outsideBlocks.lac.attempt = s.outsideBlocks.lac.attempt by rw [h.stands]
theorem Work.watch : t.lac.watch = s.lac.watch :=
  show t.outsideBlocks.lac.watch = s.outsideBlocks.lac.watch by rw [h.stands]
theorem Work.budget : t.lac.budget = s.lac.budget :=
  show t.outsideBlocks.lac.budget = s.outsideBlocks.lac.budget by rw [h.stands]
theorem Work.debt : t.ads.debt = s.ads.debt := show t.outsideBlocks.ads.debt = s.outsideBlocks.ads.debt by rw [h.stands]
theorem Work.freshCount : t.ads.freshCount = s.ads.freshCount :=
  show t.outsideBlocks.ads.freshCount = s.outsideBlocks.ads.freshCount by rw [h.stands]
theorem Work.announceCount : t.ads.announceCount = s.ads.announceCount :=
  show t.outsideBlocks.ads.announceCount = s.outsideBlocks.ads.announceCount by rw [h.stands]

end

theorem Work.trans (h : Work outsideBlocks s t) (h' : Work outsideBlocks t u) : Work outsideBlocks s u :=
  ⟨h'.stands.trans h.stands, h.orderly.trans h.sc h'.orderly⟩

theorem Work.holds_trans (h : Work outsideHolds s t) (h' : Work outsideHolds t u) : Work outsideHolds s u :=
  ⟨h'.stands.trans h.stands, h.orderly.trans h.blocks_of_holds.sc h'.orderly⟩

theorem Work.advert_trans (h : Work outsideAdvert s t) (h' : Work outsideAdvert t u) : Work outsideAdvert s u :=
  ⟨h'.stands.trans h.stands, h.orderly.trans h.blocks_of_advert.sc h'.orderly⟩

theorem Work.holds_foldl {α : Type} {f : State → α → State} (step : ∀ s x, Work outsideHolds s (f s x)) (l : List α)
    (s : State) : Work outsideHolds s (l.foldl f s) := by
  induction l generalizing s with
  | nil => exact .refl s
  | cons x l ih => exact (step s x).holds_trans (ih (f s x))

theorem Work.foldl {α : Type} {f : State → α → State} (step : ∀ s x, Work outsideBlocks s (f s x)) (l : List α)
    (s : State) : Work outsideBlocks s (l.foldl f s) := by
  induction l generalizing s with
  | nil => exact .refl s
  | cons x l ih => exact (step s x).trans (ih (f s x))

end State

end Sys2Proof.Machine

namespace Sys2Proof.Machine

/-! The due list keeps its form (R3, R5, R6). -/

/-- A class that fits a kind stays fitting when a more urgent fitting one takes its place. -/
theorem classFits_min {k : FrameKind} {a b : Fin 3} (ha : classFits k a = true) (hb : classFits k b = true) :
    classFits k (min a b) = true := by
  rcases min_choice a b with e | e <;> rwa [e]

section
variable {p : Fin 10} {e : Entry} {k : FrameKind} {c : Fin 3}

theorem Entry.fits.followOn (h : e.fits p) {f : FrameKind × Fin 3} (recorded : e.followOn = some f) :
    carries p f.1 = true ∧ classFits f.1 f.2 = true := by
  obtain ⟨-, -, -, follow, -⟩ := h
  rw [recorded] at follow
  simpa using follow

/-- A new kind that its place may hold leaves an entry off the line fitting (R5). -/
theorem Entry.fits.become (h : e.fits p) (kind : carries p k = true) (cls : classFits k c = true) :
    (e.become k c).fits p := by
  obtain ⟨carried, fit, attempts, follow, withdrawn⟩ := h
  unfold Entry.become
  split
  · exact ⟨carried, fit, attempts, follow, withdrawn⟩
  · split
    · rename_i same
      subst same
      exact ⟨carried, classFits_min fit cls, attempts, follow, withdrawn⟩
    · exact ⟨kind, cls, Nat.zero_le 7, follow, withdrawn⟩

theorem mergeFollowOn_fits (h : e.fits p) (kind : carries p k = true) (cls : classFits k c = true) :
    (carries p (mergeFollowOn e.followOn k c).1 && classFits (mergeFollowOn e.followOn k c).1
      (mergeFollowOn e.followOn k c).2) = true := by
  cases recorded : e.followOn with
  | none => simp [mergeFollowOn, kind, cls]
  | some f =>
    obtain ⟨k', c'⟩ := f
    obtain ⟨carried, fit⟩ := h.followOn recorded
    unfold mergeFollowOn
    dsimp only
    split
    · simpa using ⟨carried, fit⟩
    · split
      · rename_i same
        subst same
        simpa [kind] using classFits_min fit cls
      · simp [kind, cls]

/-- A follow-on that its place may hold leaves the entry on the line fitting (R6). -/
theorem Entry.fits.follow (h : e.fits p) (kind : carries p k = true) (cls : classFits k c = true) :
    (e.follow k c).fits p := by
  have merged := mergeFollowOn_fits h kind cls
  obtain ⟨carried, fit, attempts, follow, withdrawn⟩ := h
  unfold Entry.follow
  split
  · exact ⟨carried, fit, attempts, follow, withdrawn⟩
  · exact ⟨carried, fit, attempts, merged, nofun⟩

theorem Entry.follow_kind (e : Entry) (k : FrameKind) (c : Fin 3) : (e.follow k c).kind = e.kind := by
  unfold Entry.follow
  split <;> rfl

theorem Entry.withdraws_eq_false :
    e.withdraws = false ↔ e.kind ≠ .withdraw ∧ ∀ f, e.followOn = some f → f.1 ≠ .withdraw := by
  unfold Entry.withdraws
  cases e.followOn <;> simp

/-- Only the withdraw ADVERT makes an entry withdraw. -/
theorem Entry.become_withdraws (h : e.withdraws = false) (other : k ≠ .withdraw) :
    (e.become k c).withdraws = false := by
  rw [Entry.withdraws_eq_false] at h ⊢
  obtain ⟨kind, follow⟩ := h
  unfold Entry.become
  split
  · exact ⟨kind, follow⟩
  · split
    · exact ⟨kind, follow⟩
    · exact ⟨other, follow⟩

theorem Entry.follow_withdraws (h : e.withdraws = false) (other : k ≠ .withdraw) :
    (e.follow k c).withdraws = false := by
  rw [Entry.withdraws_eq_false] at h ⊢
  obtain ⟨kind, follow⟩ := h
  unfold Entry.follow
  split
  · exact ⟨kind, follow⟩
  · refine ⟨kind, ?_⟩
    rintro f ⟨rfl⟩
    cases recorded : e.followOn with
    | none => exact other
    | some f =>
      unfold mergeFollowOn
      dsimp only
      split
      · exact follow f recorded
      · split <;> exact other

end

namespace State

variable {s : State} {p : Fin 10} {k : FrameKind} {c : Fin 3}

theorem onLine_eq_true : s.onLine p = true ↔ ∃ a, s.lac.attempt = some a ∧ a.place = p := by
  unfold State.onLine
  cases s.lac.attempt <;> simp

/-- An entry written to a place keeps the form of the due list where it fits there, and has the kind of the attempt where
one of that place is on the line. -/
theorem DueOk.setEntry {e : Option Entry} (ok : s.DueOk) (fits : ∀ x, e = some x → x.fits p)
    (line : s.onLine p = true → ∀ x, s.entry p = some x → ∃ y, e = some y ∧ y.kind = x.kind) :
    (s.setEntry p e).DueOk := by
  constructor
  · intro q x
    rw [State.entry_setEntry]
    split
    · rename_i same
      subst same
      exact fits x
    · exact ok.entries q x
  · intro a on
    obtain ⟨x, stands, kind⟩ := ok.attempt a on
    rw [State.entry_setEntry]
    split
    · rename_i same
      obtain ⟨y, written, kind'⟩ := line (onLine_eq_true.2 ⟨a, on, same⟩) x (same ▸ stands)
      exact ⟨y, written, kind'.trans kind⟩
    · exact ⟨x, stands, kind⟩

theorem newEntry_fits (kind : carries p k = true) (cls : classFits k c = true) : (s.newEntry k c).fits p :=
  ⟨kind, cls, Nat.zero_le 7, rfl, nofun⟩

/-- Making a kind due that its place may hold keeps the form of the due list. -/
theorem DueOk.makeDue (ok : s.DueOk) (kind : carries p k = true) (cls : classFits k c = true) :
    (s.makeDue p k c).DueOk := by
  rw [State.makeDue_eq]
  refine ok.setEntry (fun x => ?_) fun on x stands => ?_
  · unfold State.dueEntry
    split
    · exact ok.entries p x
    · cases stands : s.entry p with
      | none =>
        rintro ⟨rfl⟩
        exact newEntry_fits kind cls
      | some e =>
        have fits := ok.entries p e stands
        rintro ⟨rfl⟩
        split
        · exact fits.follow kind cls
        · exact fits.become kind cls
  · unfold State.dueEntry
    rw [stands]
    split
    · exact ⟨x, rfl, rfl⟩
    · exact ⟨_, rfl, x.follow_kind k c⟩

/-- Making due any kind but the withdraw ADVERT is orderly. -/
theorem Orderly.makeDue (kind : carries p k = true) (cls : classFits k c = true) (other : k ≠ .withdraw) :
    s.Orderly (s.makeDue p k c) := by
  have hu : (s.makeDue p k c).hu = s.hu := by rw [State.makeDue_eq]; rfl
  have clp : (s.makeDue p k c).clp = s.clp := by rw [State.makeDue_eq]; rfl
  have rest : s.Orderly ({ s with hu := (s.makeDue p k c).hu, clp := (s.makeDue p k c).clp }) :=
    .of_eq rfl rfl (by rw [hu]) (by rw [clp]) (by rw [clp])
  refine ⟨fun ok => ok.makeDue kind cls, fun muted none q => ?_, fun none q => ?_, rest.live, rest.free, rest.accounts⟩
  · rw [State.makeDue, if_pos muted]
    exact none q
  · rw [State.makeDue_eq, State.entry_setEntry]
    split
    · have stood := none p
      unfold State.dueEntry
      split
      · exact stood
      · cases stands : s.entry p with
        | none => exact Entry.withdraws_eq_false.2 ⟨other, nofun⟩
        | some e =>
          rw [stands] at stood
          dsimp only [Option.any]
          split
          · exact Entry.follow_withdraws stood other
          · exact Entry.become_withdraws stood other
    · exact none q

/-- Withdrawing an entry is orderly. -/
theorem Orderly.withdrawEntry : s.Orderly (s.withdrawEntry p) := by
  have hu : (s.withdrawEntry p).hu = s.hu := by rw [State.withdrawEntry_eq]; rfl
  have clp : (s.withdrawEntry p).clp = s.clp := by rw [State.withdrawEntry_eq]; rfl
  have rest : s.Orderly ({ s with hu := (s.withdrawEntry p).hu, clp := (s.withdrawEntry p).clp }) :=
    .of_eq rfl rfl (by rw [hu]) (by rw [clp]) (by rw [clp])
  refine ⟨fun ok => ?_, fun _ none q => ?_, fun none q => ?_, rest.live, rest.free, rest.accounts⟩
  · rw [State.withdrawEntry_eq]
    refine ok.setEntry (fun x => ?_) fun on x stands => ?_
    · split
      · cases stands : s.entry p with
        | none => exact nofun
        | some e =>
          obtain ⟨carried, fit, attempts, -, -⟩ := ok.entries p e stands
          rintro ⟨rfl⟩
          exact ⟨carried, fit, attempts, rfl, fun _ => rfl⟩
      · exact nofun
    · exact ⟨{ x with withdrawn := true, followOn := none }, by rw [if_pos on, stands]; rfl, rfl⟩
  · rw [State.withdrawEntry_eq, State.entry_setEntry, none p, none q]
    split <;> [split; skip] <;> rfl
  · rw [State.withdrawEntry_eq, State.entry_setEntry]
    split
    · split
      · have stood := none p
        cases stands : s.entry p with
        | none => rfl
        | some e =>
          rw [stands] at stood
          exact Entry.withdraws_eq_false.2 ⟨(Entry.withdraws_eq_false.1 stood).1, nofun⟩
      · rfl
    · exact none q

/-- Raising the ADVERT to class 0 is orderly: an ADVERT has any class. -/
theorem Orderly.raiseAdvert : s.Orderly s.raiseAdvert := by
  unfold State.raiseAdvert
  cases stands : s.entry advertPlace with
  | none => exact .refl s
  | some e =>
    have rest : s.Orderly { s with lac.due := s.lac.due } := .refl s
    have raises (k : FrameKind) (c : Fin 3) (carried : carries advertPlace k = true) : classFits k 0 = true := by
      cases k <;> first | rfl | exact absurd carried (by decide)
    refine ⟨fun ok => ?_, fun _ none => ?_, fun none q => ?_, rest.live, rest.free, rest.accounts⟩
    · have fits := ok.entries advertPlace e stands
      refine ok.setEntry (fun x => ?_) fun _ x stood => ?_
      · have followed {f} := Entry.fits.followOn (f := f) fits
        obtain ⟨carried, -, attempts, -, withdrawn⟩ := fits
        rintro ⟨rfl⟩
        refine ⟨carried, raises e.kind 0 carried, attempts, ?_, fun gone => by rw [withdrawn gone]; rfl⟩
        cases recorded : e.followOn with
        | none => rfl
        | some f =>
          obtain ⟨carried', -⟩ := followed recorded
          simp [carried', raises f.1 0 carried']
      · rw [stands] at stood
        cases stood
        exact ⟨_, rfl, rfl⟩
    · rw [none advertPlace] at stands
      cases stands
    · rw [State.entry_setEntry]
      split
      · have stood := none advertPlace
        rw [stands] at stood
        obtain ⟨kind, follow⟩ := Entry.withdraws_eq_false.1 stood
        refine Entry.withdraws_eq_false.2 ⟨kind, ?_⟩
        cases recorded : e.followOn with
        | none => exact nofun
        | some f =>
          rintro _ ⟨rfl⟩
          exact follow f recorded
      · exact none q

end State

end Sys2Proof.Machine

namespace Sys2Proof.Machine

theorem Slot.waiting_of_not_live {x : Slot} (dead : x.isLive = false) : x.waiting = 0 := by
  cases x with
  | live => cases dead
  | free | closing | ended => rfl

namespace State

variable {s t : State} {i : Fin 8} {x : Slot}

/-! Writing a slot, with the completions that its HOLD COMMIT is owed. -/

theorem slot_setSlot (i j : Fin 8) (x : Slot) : (s.setSlot i x).slot j = if j = i then x else s.slot j := by
  split
  · rename_i same
    subst same
    exact s.slot_setSlot_self j x
  · rename_i other
    exact s.slot_setSlot_ne i j x other

/-- The waiting HOLD COMMITs, slot by slot. -/
theorem waitingCommits_eq : s.waitingCommits = (s.slot 0).waiting + (s.slot 1).waiting + (s.slot 2).waiting +
    (s.slot 3).waiting + (s.slot 4).waiting + (s.slot 5).waiting + (s.slot 6).waiting + (s.slot 7).waiting := by
  simp [State.waitingCommits, allSlots, Nat.add_assoc]

theorem waitingCommits_setSlot (s : State) (i : Fin 8) (x : Slot) :
    (s.setSlot i x).waitingCommits + (s.slot i).waiting = s.waitingCommits + x.waiting := by
  simp only [waitingCommits_eq, slot_setSlot]
  fin_cases i <;> simp <;> omega

theorem waitingCommits_congr (slots : t.hu.slots = s.hu.slots) : t.waitingCommits = s.waitingCommits := by
  have slot (i : Fin 8) : t.slot i = s.slot i := by rw [State.slot, slots]; rfl
  simp only [State.waitingCommits, slot]

/-- Writing one slot is orderly where it makes no slot LIVE and no FREE slot taken, and posts what it no longer
waits for. -/
theorem Orderly.of_setSlot (due : t.lac.due = s.lac.due) (attempt : t.lac.attempt = s.lac.attempt)
    (slots : t.hu.slots = s.hu.slots.set i x) (live : x.isLive = true → (s.slot i).isLive = true)
    (free : s.slot i = .free → x = .free) (posted : Nat) (paid : (s.slot i).waiting = x.waiting + posted)
    (completions : t.clp.completions.length = s.clp.completions.length + posted)
    (reservations : t.clp.reservations = s.clp.reservations - posted) : s.Orderly t := by
  have slot (j : Fin 8) : t.slot j = if j = i then x else s.slot j := by
    rw [← s.slot_setSlot, State.slot, slots]
    rfl
  have rest : s.Orderly { t with hu := s.hu, clp := s.clp } := .of_eq due attempt rfl rfl rfl
  have dueOk (ok : s.DueOk) : t.DueOk := ⟨(rest.dueOk ok).entries, (rest.dueOk ok).attempt⟩
  refine ⟨dueOk, rest.quiet, rest.withdraws, fun j => ?_, fun j => ?_, fun k owed => ?_⟩
  · rw [slot]
    split
    · rename_i same
      exact same ▸ live
    · exact id
  · rw [slot]
    split
    · rename_i same
      exact same ▸ free
    · exact id
  · have sum := s.waitingCommits_setSlot i x
    rw [waitingCommits_congr (s := s.setSlot i x) slots, completions, reservations]
    omega

/-! The work on the holds (R88, R95, R103, R106, R107, R110 to R112). -/

theorem outsideHolds_setEntry (i : Fin 8) (e : Option Entry) :
    (s.setEntry (holdPlace i) e).outsideHolds = s.outsideHolds := by
  have := i.isLt
  have place8 : (s.lac.due.set (holdPlace i) e)[8] = s.lac.due[8] :=
    Vector.getElem_set_ne (by omega) (by omega) (show i.val ≠ 8 by omega)
  have place9 : (s.lac.due.set (holdPlace i) e)[9] = s.lac.due[9] :=
    Vector.getElem_set_ne (by omega) (by omega) (show i.val ≠ 9 by omega)
  simp only [State.outsideHolds, State.setEntry, place8, place9]

theorem Work.holds_of_eq (stands : t.outsideHolds = s.outsideHolds) (due : t.lac.due = s.lac.due)
    (slots : t.hu.slots = s.hu.slots) (completions : t.clp.completions = s.clp.completions)
    (reservations : t.clp.reservations = s.clp.reservations) : Work outsideHolds s t :=
  ⟨stands, .of_eq due
    (show t.outsideHolds.lac.attempt = s.outsideHolds.lac.attempt by rw [stands]) slots completions reservations⟩

theorem Work.makeDue (i : Fin 8) {k : FrameKind} {c : Fin 3} (kind : carries (holdPlace i) k = true)
    (cls : classFits k c = true) (other : k ≠ .withdraw) : Work outsideHolds s (s.makeDue (holdPlace i) k c) :=
  ⟨by rw [State.makeDue_eq, outsideHolds_setEntry], .makeDue kind cls other⟩

theorem Work.makeRelease (s : State) (i : Fin 8) : Work outsideHolds s (s.makeDue (holdPlace i) .release 1) :=
  .makeDue i (decide_eq_true i.isLt) rfl nofun

theorem Work.makeObject (s : State) (i : Fin 8) : Work outsideHolds s (s.makeDue (holdPlace i) .object 0) :=
  .makeDue i (decide_eq_true i.isLt) rfl nofun

theorem Work.makeAnnounce (s : State) (i : Fin 8) : Work outsideHolds s (s.makeDue (holdPlace i) .announce 1) :=
  .makeDue i (decide_eq_true i.isLt) rfl nofun

theorem Work.makeCommit (s : State) (i : Fin 8) : Work outsideHolds s (s.makeDue (holdPlace i) .commit 1) :=
  .makeDue i (decide_eq_true i.isLt) rfl nofun

theorem Work.withdrawHold (s : State) (i : Fin 8) : Work outsideHolds s (s.withdrawEntry (holdPlace i)) :=
  ⟨by rw [State.withdrawEntry_eq, outsideHolds_setEntry], .withdrawEntry⟩

theorem Work.count (s : State) (n : Nat) : Work outsideHolds s (s.count n) := .holds_of_eq rfl rfl rfl rfl rfl

theorem Work.setOverflow (s : State) (b : Bool) : Work outsideHolds s (s.setOverflow b) := by
  rw [State.setOverflow_eq]
  exact .holds_of_eq rfl rfl rfl rfl rfl

theorem Work.putHold (s : State) (h : Hold) : Work outsideHolds s (s.putHold h) := .holds_of_eq rfl rfl rfl rfl rfl

theorem Work.removeHold (s : State) (code : Nat) : Work outsideHolds s (s.removeHold code) := by
  have erased : Work outsideHolds s (State.count 1 { s with hu.holds := Table.erase Hold.code code s.hu.holds }) :=
    .holds_of_eq rfl rfl rfl rfl rfl
  unfold State.removeHold
  split
  · exact .refl s
  · dsimp only
    split
    · exact erased
    · exact erased.holds_trans (.setOverflow _ false)

/-- What `endHold` writes beside the records: the slot, and the completion of the HOLD COMMIT that waits in it. -/
theorem Work.settleSlot (s : State) (i : Fin 8) (status : Status) (items : Items) (x : Slot)
    (dead : x.isLive = false) (taken : s.slot i = .free → x = .free) :
    Work outsideHolds s ((s.completeCommit i status items).setSlot i x) := by
  have waits : x.waiting = 0 := Slot.waiting_of_not_live dead
  have never : x.isLive = true → (s.slot i).isLive = true := by simp [dead]
  unfold State.completeCommit
  split
  · rename_i sub n t slot
    split
    · rename_i c tag
      exact ⟨rfl, .of_setSlot rfl rfl rfl never taken 1 (by rw [waits, slot, Slot.waiting, tag]; rfl) (by simp) rfl⟩
    · rename_i tag
      exact ⟨rfl, .of_setSlot rfl rfl rfl never taken 0 (by rw [waits, slot, Slot.waiting, tag]; rfl) rfl rfl⟩
  · rename_i slot
    refine ⟨rfl, .of_setSlot rfl rfl rfl never taken 0 ?_ rfl rfl⟩
    rw [waits]
    refine Slot.waiting_of_not_live ?_
    cases e : s.slot i <;> first | rfl | exact absurd e (slot _ _ _)

/-- A LIVE slot goes on LIVE, with the HOLD COMMIT that waits in it. -/
theorem Work.setLive {s : State} {i : Fin 8} {sub : Substate} {n : BitVec 8} {t : Tag} (slot : s.slot i = .live sub n t)
    (sub' : Substate) (waits : sub'.commitTag = sub.commitTag) : Work outsideHolds s (s.setSlot i (.live sub' n t)) :=
  ⟨rfl, .of_setSlot rfl rfl rfl (fun _ => by rw [slot]; rfl) (fun free => by rw [slot] at free; cases free) 0
    (by simp only [slot, Slot.waiting, waits, Nat.add_zero]) rfl rfl⟩

/-- A slot in CLOSING or ENDED takes another state in which it is not LIVE. -/
theorem Work.setDead {s : State} {i : Fin 8} (dead : (s.slot i).isLive = false) (taken : s.slot i ≠ .free) {x : Slot}
    (dead' : x.isLive = false) : Work outsideHolds s (s.setSlot i x) :=
  ⟨rfl, .of_setSlot rfl rfl rfl (by simp [dead']) (fun free => absurd free taken) 0
    (by rw [Slot.waiting_of_not_live dead, Slot.waiting_of_not_live dead']) rfl rfl⟩

theorem slot_removeHold (s : State) (code : Nat) (i : Fin 8) : (s.removeHold code).slot i = s.slot i := by
  unfold State.removeHold
  split
  · rfl
  · dsimp only
    split
    · rfl
    · rw [State.setOverflow_eq]; rfl

theorem Work.endHold (s : State) (i : Fin 8) (outcome : HoldOutcome) (x : Slot) (dead : x.isLive = false) :
    Work outsideHolds s (s.endHold i outcome x) := by
  unfold State.endHold
  split
  · exact .refl s
  · rename_i n number
    refine (Work.removeHold s _).holds_trans (.settleSlot _ i _ _ x dead fun free => ?_)
    rw [slot_removeHold] at free
    rw [free] at number
    cases number

theorem Work.loseHold (s : State) (i : Fin 8) : Work outsideHolds s (s.loseHold i) := by
  unfold State.loseHold
  split
  · exact (Work.withdrawHold s i).holds_trans (.endHold _ i _ _ rfl)
  · exact .refl s

theorem Work.withdrawObject (s : State) (i : Fin 8) : Work outsideHolds s (s.withdrawObject (holdPlace i)) := by
  unfold State.withdrawObject
  split
  · split
    · exact .withdrawHold s i
    · exact .refl s
  · exact .refl s

theorem Work.supersede (s : State) (h : Hold) : Work outsideHolds s (s.supersede h) := by
  unfold State.supersede
  split
  · split
    · split
      · split
        · exact (Work.withdrawObject s _).holds_trans (.endHold _ _ _ _ rfl)
        · exact .refl s
      · exact .refl s
    · exact .removeHold s _
  · exact .refl s

theorem Work.checkSuperseded (s : State) (node : Nat) : Work outsideHolds s (s.checkSuperseded node) :=
  .holds_foldl (f := fun s h => s.supersede h) Work.supersede _ s

theorem Work.establish (s : State) (n : BitVec 8) : Work outsideHolds s (s.establish n) := by
  unfold State.establish
  split
  · exact .refl s
  · exact (Work.putHold s _).holds_trans (.count _ 1)

theorem slot_establish (s : State) (n : BitVec 8) (i : Fin 8) : (s.establish n).slot i = s.slot i := by
  unfold State.establish
  split <;> rfl

theorem Work.endContest (s : State) (i : Fin 8) : Work outsideHolds s (s.endContest i) := by
  unfold State.endContest
  split
  · rename_i n t slot
    exact (Work.establish s n).holds_trans (.setLive ((slot_establish s n i).trans slot) .held rfl)
  · rename_i c n t slot
    exact ((Work.establish s n).holds_trans (.setLive ((slot_establish s n i).trans slot) (.committing c) rfl)).holds_trans
      (.makeCommit _ i)
  · exact .refl s

theorem Work.expireHold (s : State) (i : Fin 8) : Work outsideHolds s (s.expireHold i) := by
  unfold State.expireHold
  split
  · exact (Work.endHold s i _ _ rfl).holds_trans (.makeRelease _ i)
  · exact (Work.endHold s i _ _ rfl).holds_trans (.makeRelease _ i)
  · exact .refl s

/-- A waiting HOLD COMMIT that completes while its slot goes on without it. -/
theorem Work.payCommit {s : State} {i : Fin 8} {c : Tag} {n : BitVec 8} {t : Tag} {sub : Substate}
    (slot : s.slot i = .live (.committing c) n t) (paid : sub.commitTag = none) (done : Completion) :
    Work outsideHolds s ((s.post done).setSlot i (.live sub n t)) :=
  ⟨rfl, .of_setSlot rfl rfl rfl (fun _ => by rw [slot]; rfl) (fun free => by rw [slot] at free; cases free) 1
    (by simp only [slot, Slot.waiting, paid]; rfl) (by simp) rfl⟩

theorem Work.commitSent {s : State} {i : Fin 8} {c : Tag} {n : BitVec 8} {t : Tag}
    (slot : s.slot i = .live (.committing c) n t) : Work outsideHolds s (s.commitSent i n t c) := by
  unfold State.commitSent
  split
  · exact .refl s
  · rename_i h _
    have paid := (Work.payCommit (sub := .committed) slot rfl (.plain .holdCommit c .ok)).holds_trans
      (.holds_of_eq (t := (State.setSlot i (.live .committed n t) (State.count 1 (s.putHold { h with
        committed := true, lifetime := some s.commitBits }))).post (.plain .holdCommit c .ok)) rfl rfl rfl rfl rfl)
    exact paid.holds_trans (.supersede _ _)

theorem Work.holdSent (s : State) (i : Fin 8) (k : FrameKind) : Work outsideHolds s (s.holdSent i k) := by
  unfold State.holdSent
  split
  · rename_i c n t slot
    exact .setLive slot (.announced 0 c) rfl
  · rename_i slot
    exact .commitSent slot
  · rename_i slot
    exact .setDead (by rw [slot]; rfl) (by rw [slot]; nofun) rfl
  · rename_i slot
    exact .setDead (by rw [slot]; rfl) (by rw [slot]; nofun) rfl
  · exact .refl s

theorem Work.holdDropped (s : State) (i : Fin 8) (k : FrameKind) : Work outsideHolds s (s.holdDropped i k) := by
  unfold State.holdDropped
  split
  · exact .endHold s i _ _ rfl
  · rename_i slot
    exact .payCommit (sub := .held) slot rfl _
  · rename_i slot
    exact .setDead (by rw [slot]; rfl) (by rw [slot]; nofun) rfl
  · rename_i slot
    exact .setDead (by rw [slot]; rfl) (by rw [slot]; nofun) rfl
  · exact .refl s

theorem Work.restate (s : State) (i : Fin 8) : Work outsideHolds s (s.restate i) := by
  unfold State.restate
  split
  · exact .makeAnnounce s i
  · exact .makeObject s i
  · exact .makeObject s i
  · exact .refl s

theorem Work.restateAll (s : State) : Work outsideHolds s s.restateAll :=
  .holds_foldl (f := fun s i => s.restate i) Work.restate _ s

theorem Work.objectIf (h : Hold) (s : State) (i : Fin 8) : Work outsideHolds s (s.objectIf h i) := by
  unfold State.objectIf
  split
  · split
    · split
      · exact .makeObject s i
      · exact .refl s
    · exact .refl s
  · exact .refl s

theorem Work.objectAll (s : State) (h : Hold) : Work outsideHolds s (s.objectAll h) :=
  .holds_foldl (f := fun s i => s.objectIf h i) (Work.objectIf h) _ s

theorem Work.yield (s : State) (r : Hold) : Work outsideHolds s (s.yield r) := by
  unfold State.yield
  split
  · split
    · exact .loseHold s _
    · exact .refl s
  · exact .removeHold s _

theorem Work.storeHold (s : State) (h : Hold) : Work outsideHolds s (s.storeHold h) := by
  unfold State.storeHold
  split
  · exact ((Work.putHold s _).holds_trans (.count _ 1)).holds_trans (.supersede _ _)
  · exact .setOverflow s true

theorem Work.contend (s : State) (h : Hold) : Work outsideHolds s (s.contend h) := by
  unfold State.contend
  dsimp only
  split
  · exact .objectAll s h
  · exact (Work.holds_foldl (f := fun s r => s.yield r) Work.yield _ s).holds_trans (.storeHold _ h)

theorem Work.refresh (s : State) (r h : Hold) : Work outsideHolds s (s.refresh r h) := by
  unfold State.refresh
  dsimp only
  have counted (s : State) (b : Bool) : Work outsideHolds s (if b then s.count 1 else s) := by
    split
    · exact .count s 1
    · exact .refl s
  have checked (s : State) (b : Bool) (r : Hold) : Work outsideHolds s (if b then s.supersede r else s) := by
    split
    · exact .supersede s r
    · exact .refl s
  exact ((Work.putHold s _).holds_trans (counted _ _)).holds_trans (checked _ _ _)

theorem Work.incoming (s : State) (h : Hold) : Work outsideHolds s (s.incoming h) := by
  unfold State.incoming
  split
  · exact .contend s h
  · split
    · exact .refresh s _ h
    · exact (Work.removeHold s _).holds_trans (.contend _ h)

theorem Work.holdFrame (s : State) (k : FrameKind) (origin : Nat) (body : List Byte) :
    Work outsideHolds s (s.holdFrame k origin body) := by
  unfold State.holdFrame
  split
  · split
    · exact .refl s
    · exact .incoming s _
  · exact .refl s

theorem Work.releaseFrame (s : State) (origin : Nat) (body : List Byte) :
    Work outsideHolds s (s.releaseFrame origin body) := by
  unfold State.releaseFrame
  split
  · split
    · exact .removeHold s _
    · exact .refl s
  · exact .refl s

theorem Work.removePeerHolds (s : State) (origin : Nat) : Work outsideHolds s (s.removePeerHolds origin) :=
  .holds_foldl (f := fun s (h : Hold) => s.removeHold h.code) (fun s (h : Hold) => .removeHold s h.code) _ s

theorem Work.muteSlot (s : State) (i : Fin 8) : Work outsideHolds s (s.muteSlot i) := by
  unfold State.muteSlot
  split
  · exact .endHold s i _ _ rfl
  · rename_i slot
    exact .setDead (by rw [slot]; rfl) (by rw [slot]; nofun) rfl
  · exact .refl s

theorem Work.muteHolds (s : State) : Work outsideHolds s s.muteHolds :=
  .holds_foldl (f := fun s i => s.muteSlot i) Work.muteSlot _ s

theorem Work.leaveSlot (s : State) (i : Fin 8) : Work outsideHolds s (s.leaveSlot i) := by
  unfold State.leaveSlot
  split
  · split
    · exact (Work.endHold s i _ _ rfl).holds_trans (.makeRelease _ i)
    · exact (Work.withdrawHold s i).holds_trans (.endHold _ i _ _ rfl)
  · exact (Work.endHold s i _ _ rfl).holds_trans (.makeRelease _ i)
  · rename_i slot
    exact .setDead (by rw [slot]; rfl) (by rw [slot]; nofun) rfl
  · rename_i slot
    exact .setDead (by rw [slot]; rfl) (by rw [slot]; nofun) rfl
  · exact .refl s

theorem Work.leaveHolds (s : State) : Work outsideHolds s s.leaveHolds :=
  .holds_foldl (f := fun s i => s.leaveSlot i) Work.leaveSlot _ s

theorem Work.releaseLive (s : State) (i : Fin 8) (sub : Substate) (n : BitVec 8) (t : Tag) :
    Work outsideHolds s (s.releaseLive i sub n t) := by
  unfold State.releaseLive
  split
  · split
    · exact (Work.endHold s i _ _ rfl).holds_trans (.makeRelease _ i)
    · exact (Work.withdrawHold s i).holds_trans (.endHold _ i _ _ rfl)
  · exact (Work.endHold s i _ _ rfl).holds_trans (.makeRelease _ i)

end State

end Sys2Proof.Machine

namespace Sys2Proof.Machine

namespace State

variable {s t : State}

/-! Making ADVERTs due, and the end of isolation (R19, R58 to R63, R70). -/

theorem Work.advert_of_eq (stands : t.outsideAdvert = s.outsideAdvert) (due : t.lac.due = s.lac.due) :
    Work outsideAdvert s t :=
  have same {α : Type} (f : State → α) : f t.outsideAdvert = f s.outsideAdvert := congrArg f stands
  ⟨stands, .of_eq due (same (fun x => x.lac.attempt)) (same (fun x => x.hu.slots)) (same (fun x => x.clp.completions))
    (same (fun x => x.clp.reservations))⟩

theorem outsideAdvert_setEntry (s : State) (e : Option Entry) :
    (s.setEntry advertPlace e).outsideAdvert = s.outsideAdvert := by
  have twice : (s.lac.due.set 8 e).set 8 none = s.lac.due.set 8 none := Vector.set_set ..
  simp only [State.outsideAdvert, State.setEntry, advertPlace]
  exact congrArg (fun d => ({ s with
    lac := { s.lac with due := d, isolated := false }
    ads := { s.ads with mark := .clear, entryPresent := false }
    clp := { s.clp with marks := { s.clp.marks with isolated := false } } } : State)) twice

theorem Work.makeAdvertDue (s : State) (c : Fin 3) : Work outsideAdvert s (s.makeAdvertDue c) := by
  have made : Work outsideAdvert s (s.makeDue advertPlace .advert c) :=
    ⟨by rw [State.makeDue_eq, outsideAdvert_setEntry], .makeDue rfl rfl nofun⟩
  exact made.advert_trans (.advert_of_eq rfl rfl)

theorem Work.raiseAdvert (s : State) : Work outsideAdvert s s.raiseAdvert := by
  refine ⟨?_, .raiseAdvert⟩
  unfold State.raiseAdvert
  split
  · rfl
  · exact outsideAdvert_setEntry s _

theorem Work.dueCheck (s : State) : Work outsideAdvert s s.dueCheck := by
  unfold State.dueCheck
  split
  · exact .refl s
  · split
    · split
      · exact .raiseAdvert s
      · exact .refl s
    · split
      · exact .makeAdvertDue s _
      · exact .refl s

theorem Work.contentReport (s : State) : Work outsideAdvert s s.contentReport := by
  have marked : Work outsideAdvert s { s with ads.mark := .waiting } := .advert_of_eq rfl rfl
  unfold State.contentReport
  split
  · exact .refl s
  · dsimp only
    split
    · exact marked.advert_trans (.makeAdvertDue _ 1)
    · exact marked

theorem Work.setIsolated (s : State) (b : Bool) : Work outsideAdvert s (s.setIsolated b) := by
  rw [State.setIsolated_eq]
  exact .advert_of_eq rfl rfl

theorem Work.endIsolation (s : State) : Work outsideAdvert s s.endIsolation := by
  unfold State.endIsolation
  split
  · exact (Work.setIsolated s false).advert_trans (.contentReport _)
  · exact .refl s

theorem Work.solicitFrame (s : State) : Work outsideAdvert s s.solicitFrame := by
  unfold State.solicitFrame
  split
  · exact .makeAdvertDue s 2
  · exact .refl s

theorem Work.advertDiscarded (s : State) : Work outsideAdvert s s.advertDiscarded := .advert_of_eq rfl rfl

/-! The work on the view (R23 to R35). -/

theorem Work.of_eq (stands : t.outsideBlocks = s.outsideBlocks) (due : t.lac.due = s.lac.due)
    (slots : t.hu.slots = s.hu.slots) (completions : t.clp.completions = s.clp.completions)
    (reservations : t.clp.reservations = s.clp.reservations) : Work outsideBlocks s t :=
  ⟨stands, .of_eq due
    (show t.outsideBlocks.lac.attempt = s.outsideBlocks.lac.attempt by rw [stands]) slots completions reservations⟩

theorem Work.setView (s : State) (tv : Tv) : Work outsideBlocks s { s with tv := tv } := .of_eq rfl rfl rfl rfl rfl

theorem Work.setViewIncomplete (s : State) (b : Bool) : Work outsideBlocks s (s.setViewIncomplete b) := by
  rw [State.setViewIncomplete_eq]
  exact .of_eq rfl rfl rfl rfl rfl

theorem Work.setMissing (s : State) (node n : Nat) : Work outsideBlocks s (s.setMissing node n) := by
  unfold State.setMissing
  split
  · exact .refl s
  · exact .setView s _

theorem Work.replacePeerLinks (s : State) (origin : Nat) (es : List LinkEntry) :
    Work outsideBlocks s (s.replacePeerLinks origin es) := by
  unfold State.replacePeerLinks
  dsimp only
  exact (((Work.setView s _).trans (.setView _ _)).trans (.setMissing _ _ _)).trans (.setView _ _)

theorem Work.replaceOwnLinks (s : State) (es : List LinkEntry) : Work outsideBlocks s (s.replaceOwnLinks es) := by
  unfold State.replaceOwnLinks
  exact ((Work.setView s _).trans (.setView _ _)).trans (.setView _ _)

theorem Work.purge (s : State) (origin : Nat) : Work outsideBlocks s (s.purge origin) := by
  unfold State.purge
  dsimp only
  have dropped := (Work.setView s { s.tv with
    links := dropLinks origin s.tv.links, nodes := Table.erase NodeRecord.id origin s.tv.nodes }).trans
    (Work.removePeerHolds _ origin).blocks_of_holds
  exact ((dropped.trans (.setView _ _)).trans (.setViewIncomplete _ false)).trans (.setView _ _)

theorem Work.ageView (s : State) : Work outsideBlocks s s.ageView := by
  unfold State.ageView
  split
  · exact .refl s
  · dsimp only
    exact (Work.setView s _).trans (.foldl (f := fun s (r : NodeRecord) => s.purge r.id) (fun s r => .purge s r.id) _ _)

theorem Work.noteMissing (s : State) (origin : Nat) : Work outsideBlocks s (s.noteMissing origin) := by
  unfold State.noteMissing
  split
  · split
    · exact .setViewIncomplete s true
    · exact .refl s
  · exact .refl s

theorem Work.storeAdvert (s : State) (origin : Nat) (a : Advert) : Work outsideBlocks s (s.storeAdvert origin a) := by
  unfold State.storeAdvert
  dsimp only
  have stored := ((Work.setView s { s.tv with
    nodes := Table.put NodeRecord.id (a.record origin) s.tv.nodes }).trans (.replacePeerLinks _ origin a.entries)).trans
    (.noteMissing _ origin)
  exact (stored.trans (.setView _ _)).trans (Work.checkSuperseded _ origin).blocks_of_holds

theorem Work.advertKnown (s : State) (r : NodeRecord) (origin : Nat) (a : Advert) :
    Work outsideBlocks s (s.advertKnown r origin a) := by
  unfold State.advertKnown
  dsimp only
  split
  · split
    · exact .purge s origin
    · exact .refl s
  · split
    · exact (Work.removePeerHolds s origin).blocks_of_holds.trans (.storeAdvert _ origin a)
    · split
      · exact .setView s _
      · split
        · exact .storeAdvert s origin a
        · exact .refl s

theorem Work.advertUnknown (s : State) (origin : Nat) (a : Advert) :
    Work outsideBlocks s (s.advertUnknown origin a) := by
  unfold State.advertUnknown
  split
  · exact .refl s
  · split
    · exact .storeAdvert s origin a
    · exact .setViewIncomplete s true

theorem Work.advertFrame (s : State) (origin : Nat) (body : List Byte) :
    Work outsideBlocks s (s.advertFrame origin body) := by
  unfold State.advertFrame
  split
  · exact .refl s
  · split
    · exact .advertKnown s _ origin _
    · exact .advertUnknown s origin _

theorem Work.insertOwn (s : State) (es : List LinkEntry) : Work outsideBlocks s (s.insertOwn es) := by
  unfold State.insertOwn
  split
  · exact .refl s
  · dsimp only
    exact ((Work.setView s _).trans (.setView _ _)).trans (.replaceOwnLinks _ es)

theorem Work.writeOwnSequence (s : State) : Work outsideBlocks s s.writeOwnSequence := by
  unfold State.writeOwnSequence
  split
  · exact .refl s
  · exact .setView s _

theorem Work.rebuild (s : State) : Work outsideBlocks s s.rebuild := by
  unfold State.rebuild
  exact ((Work.replaceOwnLinks s _).trans (Work.checkSuperseded _ _).blocks_of_holds).trans
    (Work.contentReport _).blocks_of_advert

/-! What a good frame does (R17, R19): all but a duplicate identity is the work of the blocks. -/

/-- The dispatch of a good frame from another origin by its kind. -/
def dispatchFrame (k : FrameKind) (origin : Nat) (body : List Byte) (s : State) : State :=
  match k with
  | .advert => s.advertFrame origin body
  | .withdraw => s.advertFrame origin body
  | .solicit => s.solicitFrame
  | .announce => s.holdFrame .announce origin body
  | .object => s.holdFrame .object origin body
  | .commit => s.holdFrame .commit origin body
  | .release => s.releaseFrame origin body

theorem receiveGood_eq (k : FrameKind) (origin : Nat) (body : List Byte) (s : State) :
    s.receiveGood k origin body =
      if !s.sc.station.joined then s
      else if origin = s.ownId then s.duplicateReport
      else s.endIsolation.dispatchFrame k origin body := by
  unfold State.receiveGood State.dispatchFrame
  rfl

theorem Work.dispatchFrame (k : FrameKind) (origin : Nat) (body : List Byte) (s : State) :
    Work outsideBlocks s (s.dispatchFrame k origin body) := by
  unfold State.dispatchFrame
  split
  · exact .advertFrame s origin body
  · exact .advertFrame s origin body
  · exact (Work.solicitFrame s).blocks_of_advert
  · exact (Work.holdFrame s _ origin body).blocks_of_holds
  · exact (Work.holdFrame s _ origin body).blocks_of_holds
  · exact (Work.holdFrame s _ origin body).blocks_of_holds
  · exact (Work.releaseFrame s origin body).blocks_of_holds

end State

end Sys2Proof.Machine

namespace Sys2Proof.Machine

/-! Every command is a request at its owner, an event at its block, or one of the few commands of the port and the reset
line; so what every step keeps is shown once for each of these. -/

namespace State

/-- A rise of receive activity, `dt` after the event before it (R1, R9, R11, R18). -/
def riseActivity (dt : Nat) (s : State) : State :=
  { (s.elapse dt).missLimit with
    lac.activity := true, lac.echo := (s.elapse dt).transmitEnable, lac.idle := 0
    lac.watch := (s.elapse dt).lac.watch.restarted }

/-- The first entry that may start, starts (R4, R8). -/
def startFirst (s : State) : State :=
  match s.firstStartable with
  | some p => s.startAttempt p
  | none => s

/-- The whole echo of the attempt on the line is matched (R12). -/
def matchEcho (s : State) : State :=
  match s.lac.attempt with
  | none => s
  | some a => s.judgeEcho (lineRun a.frame)

/-- The attempt whose echo is lost ends (R11). -/
def loseEcho (s : State) : State :=
  match s.lac.attempt with
  | none => s
  | some a =>
    match s.brokenOff with
    | some n => s.failAttempt a n
    | none => if s.lac.echo then s else s.failAttempt a echoLimit

/-- The RI tick, with the time that its timer has left (R173). -/
def riTicks (s : State) : State :=
  match s.sc.riTimer with
  | none => s
  | some e => { s.elapse (s.riBits - e) with sc.riTimer := some 0 }.tickBlocks

/-- The silence watch expires (R18). -/
def watchExpires (s : State) : State :=
  match s.lac.watch with
  | .running e => { s.elapse (s.watchBits - e) with lac.watch := .expired }.setIsolated true
  | _ => s

/-- The contest of slot `i` ends (R94). -/
def contestExpires (i : Fin 8) (s : State) : State :=
  match s.slot i with
  | .live (.announced e _) _ _ => (s.elapse (s.contestBits - e)).endContest i
  | _ => s

/-- The lifetime of slot `i` ends (R101). -/
def lifetimeExpires (i : Fin 8) (s : State) : State :=
  match s.slot i with
  | .live .held n _ => (s.elapse (s.lifetimeLeft n)).expireHold i
  | .live .committed n _ => (s.elapse (s.lifetimeLeft n)).expireHold i
  | _ => s

/-- The lifetime of a peer record ends (R108). -/
def peerExpires (origin : BitVec 16) (number : Byte) (s : State) : State :=
  match Table.lookup Hold.code (holdCode origin.toNat number) s.hu.holds with
  | none => s
  | some h => if h.own then s else (s.elapse (h.lifetime.getD 0)).removeHold (holdCode origin.toNat number)

/-- A marked search ends (R138). -/
def endMarked (s : State) : State :=
  match s.psu.context with
  | some c => if c.abortTag.isSome then s.abortSearch c else s
  | none => s

/-- The state without the reset line's own flag, the counts and commands that are the model's own, the port, and the
pins: what no invariant reads. -/
def inner (s : State) : State :=
  { s with resetHeld := false, events := 0, pending := [], clp.select := false, clp.port := .idle
           lac.activity := false, lac.echo := false }

/-- The request finds no place (R160). -/
def busyFor (c : Instr) (s : State) : Bool :=
  s.queueFull || match c with
    | .path _ _ => s.pathQueueFull
    | _ => false

end State

open State

/-- What the owner of a request does with it. -/
def requestOwner : Instr → Option (State → State)
  | .identity tag node profile transit ports => some (ownIdentity tag node profile transit ports)
  | .timing tag ri listen watch contest hold commit budget ifg =>
    some (ownTiming tag (readTiming ri listen watch contest hold commit budget ifg)
      (rawTiming ri listen watch contest hold commit budget ifg))
  | .profile tag index scale pass add drop => some (ownProfile tag index scale pass add drop)
  | .join tag => some (ownJoin tag)
  | .leave tag => some (ownLeave tag)
  | .portSet tag port enabled cost noise dispersion used =>
    some (ownPortSet tag port enabled cost noise dispersion used)
  | .portTrace tag port word => some (ownPortTrace tag port word)
  | .portTraceLoss tag port => some (ownPortTraceLoss tag port)
  | .path tag body => some (ownPath tag body)
  | .abort tag sought => some (ownAbort tag sought)
  | .holdCommit tag n => some (ownHoldCommit tag n)
  | .holdRelease tag n => some (ownHoldRelease tag n)
  | .poll tag => some (ownPoll tag)
  | .blockSet tag node port operation mask => some (ownBlock tag (readKey node port) operation mask)
  | .blockClear tag node port operation mask => some (ownBlock tag (readKey node port) operation mask)
  | .trim tag index fields => some (ownTrim tag index fields)
  | .queryNode tag node mode => some (fun s => s.whenJoined (.query .node) tag
      (fun s => s.post (s.nodeAnswer tag (readBit mode) node.toNat)))
  | .queryLink tag node port mode => some (fun s => s.whenJoined (.query .link) tag
      (fun s => s.post (s.linkAnswer tag (readBit mode) (readKey node port))))
  | .queryPort tag port => some (fun s => s.whenJoined (.query .port) tag
      (fun s => s.post (s.portAnswer tag port.toNat)))
  | .queryOwnHold tag n => some (fun s => s.whenJoined (.query .ownHold) tag (fun s => s.post (s.holdAnswer tag n)))
  | .queryOwnHoldLink tag node port => some (fun s => s.whenJoined (.query .ownHold) tag
      (fun s => s.post (s.linkHoldsAnswer tag (readKey node port))))
  | .status tag => some (fun s => { s.post (s.statusAnswer tag) with clp.marks := Conditions.none })
  | _ => none

/-- What an event of the line, of a timer or of the search does at its block. -/
def eventWork : Instr → Option (State → State)
  | .receiveActivityRise dt => some (riseActivity dt)
  | .receiveActivityFall dt => some (fun s => (s.elapse dt).fallSilent)
  | .frameDropped received ending => some (receiveLine (received ++ ending))
  | .advertReceived origin body => some (receiveFrame .advert origin body)
  | .solicitReceived origin body => some (receiveFrame .solicit origin body)
  | .announceReceived origin body => some (receiveFrame .announce origin body)
  | .objectReceived origin body => some (receiveFrame .object origin body)
  | .commitReceived origin body => some (receiveFrame .commit origin body)
  | .releaseReceived origin body => some (receiveFrame .release origin body)
  | .duplicateIdentity => some (fun s => { s with lac.assembler := .waiting }.duplicateReport)
  | .attemptStart dt => some (fun s => (s.elapse dt).startFirst)
  | .attemptSucceeded => some matchEcho
  | .collision echo => some (judgeEcho echo)
  | .echoLost => some loseEcho
  | .riTick => some riTicks
  | .silenceWatchExpiry => some watchExpires
  | .contestExpiry i => some (contestExpires i)
  | .holdLifetimeExpiry i => some (lifetimeExpires i)
  | .peerLifetimeExpiry origin n => some (peerExpires origin n)
  | .searchStart => some startSearch
  | .passStart => some (searchStep .passStart (fun c s => s.setContext (s.startPass c)))
  | .selectionStep => some (searchStep .selecting (fun c s => s.setContext (s.select c)))
  | .searchCompletion => some (searchStep .completing completeSearch)
  | .searchAbortEnd => some endMarked
  | _ => none

theorem requestOwner_isSome (c : Instr) : (requestOwner c).isSome = requestOf c := by cases c <;> rfl

/-- A request is a transaction on the port, with its owner's work at the decision (R160). -/
theorem exec_request {c : Instr} {own : State → State} (h : requestOwner c = some own) (s : State) :
    exec c s = .next (s.transact (fun s => s.takeRequest (s.busyFor c) own)) := by
  have notPath (s : State) : (s.queueFull || false) = s.queueFull := Bool.or_false _
  cases c <;> cases h <;> simp only [busyFor, notPath] <;> rfl

/-- An event is taken while the reset line is not held (R20). -/
theorem exec_event {c : Instr} {work : State → State} (h : eventWork c = some work) {s : State}
    (running : s.resetHeld = false) : exec c s = .next (work { s with events := s.events + 1 }) := by
  have taken (f : State → State) : s.event f = f { s with events := s.events + 1 } := s.event_taken f running
  have notHeld : ¬s.resetHeld = true := by simp [running]
  cases c <;> cases h <;> refine congrArg Host.Outcome.next ?_
  case receiveActivityRise => exact (if_neg notHeld).trans (taken _)
  case receiveActivityFall => exact (if_neg notHeld).trans (taken _)
  all_goals exact taken _

/-- While the reset line is held an event leaves all but the pins (R183, log 21). -/
theorem exec_event_held {c : Instr} {work : State → State} (h : eventWork c = some work) {s : State}
    (held : s.resetHeld = true) : ∃ activity echo, exec c s =
      .next { s with lac.activity := activity, lac.echo := echo } := by
  have ignored (f : State → State) : s.event f = s := s.event_held f held
  cases c <;> cases h
  case receiveActivityRise => exact ⟨true, s.lac.echo, congrArg _ (if_pos held)⟩
  case receiveActivityFall => exact ⟨false, false, congrArg _ (if_pos held)⟩
  all_goals exact ⟨s.lac.activity, s.lac.echo, congrArg _ (ignored _)⟩

/-- A property that neither the pins, the port nor the model's own counts bear on is kept by every step, if the state
after reset has it and each owner, each event, a FETCH and a bit time keep it. -/
theorem step_keeps {P : State → Prop} (inner : ∀ {s t : State}, t.inner = s.inner → P s → P t)
    (reset : P State.reset)
    (fetch : ∀ {s : State} (n : Nat), P s → P { s with clp.completions := s.afterFetch n })
    (request : ∀ {c own} {s : State}, requestOwner c = some own → s.takes → P s → P (own s.accepted))
    (event : ∀ {c work} {s : State}, eventWork c = some work → P s → P (work s))
    (idle : ∀ {s : State}, P s → P (s.elapse 1)) {s t : State} (h : P s) (ran : step s = .next t) : P t := by
  have transact {s : State} {f : State → State} (h : P s)
      (kept : s.portOpen → P (f { s with events := s.events + 1 })) : P (s.transact f) := by
    unfold State.transact
    split
    · exact inner (by rfl) h
    · rename_i running
      split
      · rename_i idle
        exact kept ⟨by simpa using running, idle⟩
      · exact h
  have ofExec {c : Instr} {s t : State} (h : P s) (ran : exec c s = .next t) : P t := by
    cases owner : requestOwner c with
    | some own =>
      rw [exec_request owner] at ran
      cases ran
      refine transact h fun isOpen => ?_
      unfold State.takeRequest
      split
      · exact inner (by rfl) h
      · rename_i free
        refine request owner ⟨isOpen, ?_⟩ h
        have room : s.queueFull = false := (Bool.or_eq_false_iff.1 (Bool.eq_false_of_not_eq_true free)).1
        exact Nat.lt_of_not_le (of_decide_eq_false room)
    | none =>
      cases worked : eventWork c with
      | some work =>
        cases held : s.resetHeld with
        | true =>
          obtain ⟨activity, echo, same⟩ := exec_event_held worked held
          rw [same] at ran
          cases ran
          exact inner (by rfl) h
        | false =>
          rw [exec_event worked held] at ran
          cases ran
          exact event worked (inner (by rfl) h)
      | none =>
        cases c <;> cases owner <;> cases worked <;> cases ran
        case none.none.fetch.refl.refl.refl n => exact transact h fun _ => inner (by rfl) (fetch n h)
        case none.none.malformed.refl.refl.refl => exact transact h fun _ => inner (by rfl) h
        case none.none.selectRelease.refl.refl.refl => exact inner (by rfl) h
        case none.none.resetLineAssert.refl.refl.refl => exact inner (by rfl) reset
        case none.none.resetLineRelease.refl.refl.refl =>
          show P (if s.resetHeld then _ else s)
          split
          · exact inner (by rfl) h
          · exact h
  unfold step at ran
  split at ran
  · cases ran
    unfold State.idleTick
    split
    · exact h
    · exact inner (by rfl) (idle h)
  · exact ofExec (inner (by rfl) h) ran

end Sys2Proof.Machine

namespace Sys2Proof.Machine

namespace State

variable {s t : State}

/-! What no event of the line or of a timer writes: the block table, the profiles, the ports, the configuration, and the
path search. -/

/-- What events other than the steps of a search do not write. -/
def lasting (s : State) : List Block × Pf × Pt × Psu × Option Identity × Option Timing :=
  (s.hu.blocks, s.pf, s.pt, s.psu, s.sc.identity, s.sc.timing)

theorem Work.lasting (h : Work outsideBlocks s t) : t.lasting = s.lasting := by
  simp only [State.lasting, h.blocks, h.pf, h.pt, h.psu, h.sc]

theorem lasting_elapse (s : State) (dt : Nat) : (s.elapse dt).lasting = s.lasting := rfl

theorem lasting_clearDue (s : State) : s.clearDue.lasting = s.lasting := rfl

theorem lasting_missLimit (s : State) : s.missLimit.lasting = s.lasting := by rw [s.missLimit_eq]; rfl

theorem lasting_fallSilent (s : State) : s.fallSilent.lasting = s.lasting := by
  unfold State.fallSilent
  dsimp only
  split
  · rfl
  · split <;> rfl

theorem lasting_completeJoin (s : State) (status : Status) : (s.completeJoin status).lasting = s.lasting := by
  unfold State.completeJoin
  split <;> rfl

theorem lasting_completeLeaving (s : State) (status : Status) : (s.completeLeaving status).lasting = s.lasting := by
  unfold State.completeLeaving
  split <;> rfl

theorem lasting_cutAttempt (s : State) : s.cutAttempt.lasting = s.lasting := by
  unfold State.cutAttempt
  split <;> rfl

theorem lasting_enterMuted (s : State) : s.enterMuted.lasting = s.lasting := by
  unfold State.enterMuted
  rw [(Work.advertDiscarded _).blocks_of_advert.lasting, (Work.muteHolds _).blocks_of_holds.lasting, lasting_clearDue,
    lasting_cutAttempt, State.setMuted_eq]
  rfl

theorem lasting_finishLeave (s : State) (status : Status) : (s.finishLeave status).lasting = s.lasting := by
  unfold State.finishLeave
  rw [lasting_completeLeaving]
  simp only [State.setMuted_eq, State.setIsolated_eq, State.clearHolds, State.setOverflow_eq, State.clearView,
    State.setViewIncomplete_eq]
  rfl

theorem lasting_duplicateReport (s : State) : s.duplicateReport.lasting = s.lasting := by
  unfold State.duplicateReport
  split
  · rw [lasting_completeJoin, lasting_enterMuted]
  · rw [lasting_completeJoin, lasting_enterMuted]
  · rw [lasting_enterMuted]
  · rw [lasting_finishLeave, lasting_enterMuted]
  · rfl

theorem lasting_receiveGood (k : FrameKind) (origin : Nat) (body : List Byte) (s : State) :
    (s.receiveGood k origin body).lasting = s.lasting := by
  rw [receiveGood_eq]
  split
  · rfl
  · split
    · exact lasting_duplicateReport s
    · exact ((Work.endIsolation s).blocks_of_advert.trans (.dispatchFrame k origin body _)).lasting

theorem lasting_receiveFrame (k : FrameKind) (origin : BitVec 16) (body : List Byte) (s : State) :
    (s.receiveFrame k origin body).lasting = s.lasting := by
  unfold State.receiveFrame
  split
  · dsimp only
    split
    · rw [lasting_receiveGood]
      rfl
    · rfl
  · rfl

/-- A frame that the assembler judges good bears a node's id (R16). -/
theorem judgeEnded_valid {x : List Bool × FrameEnd} {f : FrameKind × Nat × List Byte} (h : judgeEnded x = some f) :
    validNode f.2.1 = true := by
  obtain ⟨received, -, judged⟩ := Option.bind_eq_some_iff.1 h
  unfold judgeFrame at judged
  dsimp only at judged
  split at judged
  · rename_i good
    obtain ⟨kind, -, rfl⟩ := Option.map_eq_some_iff.1 judged
    exact good.2.2.2.2.2
  · cases judged

/-- What every good frame keeps, the frames that a run of bit times ends keep. -/
theorem receiveLine_keeps {P : State → Prop}
    (good : ∀ {s} k origin body, validNode origin = true → P s → P (s.receiveGood k origin body))
    (assembler : ∀ {s : State} (a : Assembler), P s → P { s with lac.assembler := a }) (line : List LineBit)
    (h : P s) : P (s.receiveLine line) := by
  unfold State.receiveLine
  split
  · have folded (l : List (FrameKind × Nat × List Byte)) (valid : ∀ f ∈ l, validNode f.2.1 = true) (s : State)
        (h : P s) : P (l.foldl (fun s f => s.receiveGood f.1 f.2.1 f.2.2) s) := by
      induction l generalizing s with
      | nil => exact h
      | cons f l ih =>
        exact ih (fun g mem => valid g (.tail _ mem)) _ (good f.1 f.2.1 f.2.2 (valid f (.head _)) h)
    refine folded _ (fun f mem => ?_) _ (assembler _ h)
    obtain ⟨x, -, judged⟩ := List.mem_filterMap.1 mem
    exact judgeEnded_valid judged
  · exact h

theorem lasting_receiveLine (line : List LineBit) (s : State) : (s.receiveLine line).lasting = s.lasting :=
  receiveLine_keeps (P := fun t => t.lasting = s.lasting) (fun k origin body _ h => (lasting_receiveGood k origin body _).trans h)
    (fun _ h => h) line rfl

theorem lasting_startFirst (s : State) : s.startFirst.lasting = s.lasting := by
  unfold State.startFirst
  split
  · unfold State.startAttempt
    split
    · rfl
    · split <;> rfl
  · rfl

theorem lasting_advanceSequence (s : State) : s.advanceSequence.lasting = s.lasting :=
  (Work.writeOwnSequence _).lasting

theorem lasting_freshSent (s : State) : s.freshSent.lasting = s.lasting := by
  unfold State.freshSent
  dsimp only
  split
  · exact (Work.restateAll _).blocks_of_holds.lasting
  · rfl

theorem lasting_countAnnounced (s : State) : s.countAnnounced.lasting = s.lasting := by
  unfold State.countAnnounced
  split
  · dsimp only
    split
    · exact lasting_completeJoin _ .ok
    · rfl
  · rfl

theorem lasting_advertSent (s : State) (fresh follows : Bool) : (s.advertSent fresh follows).lasting = s.lasting := by
  unfold State.advertSent
  dsimp only
  rw [(Work.dueCheck _).blocks_of_advert.lasting, lasting_countAnnounced]
  show State.lasting (if fresh = true then s.advanceSequence.freshSent else s.advanceSequence) = s.lasting
  split
  · rw [lasting_freshSent, lasting_advanceSequence]
  · exact lasting_advanceSequence s

theorem lasting_advertDropped (s : State) : s.advertDropped.lasting = s.lasting := by
  unfold State.advertDropped
  dsimp only
  rw [(Work.dueCheck _).blocks_of_advert.lasting, lasting_countAnnounced]
  rfl

theorem lasting_reportSent (a : Attempt) (follows : Bool) (s : State) :
    (s.reportSent a follows).lasting = s.lasting := by
  unfold State.reportSent
  split
  · exact (Work.holdSent s _ _).blocks_of_holds.lasting
  · split
    · exact lasting_advertSent s _ _
    · rw [lasting_finishLeave, lasting_advanceSequence]
    · rfl

theorem lasting_reportDropped (p : Fin 10) (k : FrameKind) (s : State) :
    (s.reportDropped p k).lasting = s.lasting := by
  unfold State.reportDropped
  split
  · exact (Work.holdDropped s _ _).blocks_of_holds.lasting
  · split
    · exact lasting_advertDropped s
    · exact lasting_finishLeave s _
    · rfl

theorem lasting_succeedAttempt (a : Attempt) (s : State) : (s.succeedAttempt a).lasting = s.lasting := by
  unfold State.succeedAttempt
  dsimp only
  split
  · rfl
  · exact lasting_reportSent a _ _

theorem lasting_failAttempt (a : Attempt) (n : Nat) (s : State) : (s.failAttempt a n).lasting = s.lasting := by
  unfold State.failAttempt
  dsimp only
  split
  · rfl
  · split
    · rfl
    · split
      · rfl
      · exact lasting_reportDropped _ _ _

theorem lasting_judgeEcho (echo : List LineBit) (s : State) : (s.judgeEcho echo).lasting = s.lasting := by
  unfold State.judgeEcho
  split
  · rfl
  · split
    · exact lasting_failAttempt _ _ s
    · split
      · exact lasting_succeedAttempt _ _
      · rfl

theorem lasting_matchEcho (s : State) : s.matchEcho.lasting = s.lasting := by
  unfold State.matchEcho
  split
  · rfl
  · exact lasting_judgeEcho _ s

theorem lasting_loseEcho (s : State) : s.loseEcho.lasting = s.lasting := by
  unfold State.loseEcho
  split
  · rfl
  · split
    · exact lasting_failAttempt _ _ s
    · split
      · rfl
      · exact lasting_failAttempt _ _ s

theorem lasting_tickDebt (s : State) : s.tickDebt.lasting = s.lasting := by
  unfold State.tickDebt
  split
  · rfl
  · split <;> rfl

theorem lasting_countListen (s : State) : s.countListen.lasting = s.lasting := by
  unfold State.countListen
  split
  · dsimp only
    split <;> rfl
  · rfl

theorem lasting_tickBlocks (s : State) : s.tickBlocks.lasting = s.lasting := by
  unfold State.tickBlocks
  rw [(Work.dueCheck _).blocks_of_advert.lasting, lasting_countListen, lasting_tickDebt, (Work.ageView _).lasting]
  rfl

theorem riTicks_running {e : Nat} (h : s.sc.riTimer = some e) :
    s.riTicks = { s.elapse (s.riBits - e) with sc.riTimer := some 0 }.tickBlocks := by
  unfold State.riTicks
  rw [h]

theorem riTicks_stopped (h : s.sc.riTimer = none) : s.riTicks = s := by
  unfold State.riTicks
  rw [h]

theorem lasting_restarted (s : State) (dt : Nat) :
    State.lasting { s.elapse dt with sc.riTimer := some 0 } = s.lasting := rfl

theorem lasting_riTicks (s : State) : s.riTicks.lasting = s.lasting := by
  cases timer : s.sc.riTimer with
  | none => rw [riTicks_stopped timer]
  | some e =>
    rw [riTicks_running timer, lasting_tickBlocks]
    exact lasting_restarted s _

theorem watchExpires_running {e : Nat} (h : s.lac.watch = .running e) :
    s.watchExpires = { s.elapse (s.watchBits - e) with lac.watch := .expired }.setIsolated true := by
  unfold State.watchExpires
  rw [h]

theorem watchExpires_stopped (h : ∀ e, s.lac.watch ≠ .running e) : s.watchExpires = s := by
  unfold State.watchExpires
  cases watch : s.lac.watch with
  | running e => exact absurd watch (h e)
  | off | expired => rfl

theorem lasting_watchExpires (s : State) : s.watchExpires.lasting = s.lasting := by
  cases watch : s.lac.watch with
  | running e => rw [watchExpires_running watch, (Work.setIsolated _ true).blocks_of_advert.lasting]; rfl
  | off | expired => rw [watchExpires_stopped (by rw [watch]; nofun)]

theorem lasting_contestExpires (i : Fin 8) (s : State) : (s.contestExpires i).lasting = s.lasting := by
  unfold State.contestExpires
  split
  · exact (Work.endContest _ i).blocks_of_holds.lasting.trans (lasting_elapse s _)
  · rfl

theorem lasting_lifetimeExpires (i : Fin 8) (s : State) : (s.lifetimeExpires i).lasting = s.lasting := by
  unfold State.lifetimeExpires
  split
  · exact (Work.expireHold _ i).blocks_of_holds.lasting.trans (lasting_elapse s _)
  · exact (Work.expireHold _ i).blocks_of_holds.lasting.trans (lasting_elapse s _)
  · rfl

theorem lasting_peerExpires (origin : BitVec 16) (n : Byte) (s : State) :
    (s.peerExpires origin n).lasting = s.lasting := by
  unfold State.peerExpires
  split
  · rfl
  · split
    · rfl
    · exact (Work.removeHold _ _).blocks_of_holds.lasting.trans (lasting_elapse s _)

end State

open State

/-- The command is a step of the path search. -/
def searchEvent : Instr → Bool
  | .searchStart => true
  | .passStart => true
  | .selectionStep => true
  | .searchCompletion => true
  | .searchAbortEnd => true
  | _ => false

/-- Events other than the steps of a search leave the block table, the profiles, the ports, the configuration and the
path search. -/
theorem lasting_event {c : Instr} {work : State → State} (h : eventWork c = some work) (other : searchEvent c = false)
    (s : State) : (work s).lasting = s.lasting := by
  cases c <;> cases h <;> cases other
  case receiveActivityRise => exact lasting_missLimit _
  case receiveActivityFall => exact lasting_fallSilent _
  case frameDropped => exact lasting_receiveLine _ s
  case duplicateIdentity => exact lasting_duplicateReport _
  case attemptStart => exact lasting_startFirst _
  case attemptSucceeded => exact lasting_matchEcho s
  case collision => exact lasting_judgeEcho _ s
  case echoLost => exact lasting_loseEcho s
  case riTick => exact lasting_riTicks s
  case silenceWatchExpiry => exact lasting_watchExpires s
  case contestExpiry => exact lasting_contestExpires _ s
  case holdLifetimeExpiry => exact lasting_lifetimeExpires _ s
  case peerLifetimeExpiry => exact lasting_peerExpires _ _ s
  all_goals exact lasting_receiveFrame _ _ _ s

end Sys2Proof.Machine

namespace Sys2Proof.Machine

/-! The state after reset meets the invariants. -/

namespace State

theorem reset_slot (i : Fin 8) : State.reset.slot i = .free := Vector.getElem_replicate ..

theorem reset_entry (p : Fin 10) : State.reset.entry p = none := Vector.getElem_replicate ..

theorem reset_left : State.reset.left :=
  ⟨rfl, rfl, rfl, rfl, rfl, reset_slot, rfl, reset_entry, rfl, rfl, rfl, rfl⟩

theorem reset_agree : State.reset.Agree where
  identity := by decide
  timing := by decide
  ticks := rfl
  watch := by decide
  muted := by decide
  leaving := by decide
  joining := by decide
  notJoined _ := reset_left
  noSearch _ _ := ⟨rfl, rfl⟩
  noHold _ i := by rw [reset_slot]; rfl
  allFree := by
    rintro (station | station) <;> cases station
  silent station := by cases station
  withdraw _ := ⟨fun p => by rw [reset_entry]; rfl, rfl⟩

theorem reset_accounts : State.reset.Accounts := by
  refine ⟨?_, by decide, nofun⟩
  simp only [State.waitingRequests, reset_slot]
  rfl

theorem reset_ranges : State.reset.Ranges where
  identity := nofun
  timing := nofun
  listen := by decide
  listening := nofun
  ports := by decide
  profiles := by decide
  debt := by decide
  fresh := by decide
  announced := by decide
  announcing := nofun
  unannounced := nofun
  budget := by decide

theorem reset_viewForm : State.reset.ViewForm where
  nodesSorted := List.Pairwise.nil
  linksSorted := List.Pairwise.nil
  room := by decide
  peerLinks := by decide
  nodes := nofun
  links := nofun
  fromNode := nofun
  own := nofun

theorem reset_holdsOk : State.reset.HoldsOk where
  sorted := List.Pairwise.nil
  disjoint := List.Pairwise.nil
  own := nofun
  slot := nofun
  record i live := by
    rw [reset_slot] at live
    cases live
  numbers i _ taken := absurd (by rw [reset_slot]; rfl) taken
  peers := by decide
  known := nofun
  committed := nofun

theorem reset_blocksOk : State.reset.BlocksOk where
  sorted := List.Pairwise.nil
  keys := nofun
  marked := nofun
  room := by decide

theorem reset_dueOk : State.reset.DueOk where
  entries p e stands := by
    rw [reset_entry] at stands
    cases stands
  attempt := nofun

theorem reset_verified : State.reset.Verified := fun _ m => by cases m

theorem reset_searchOk : State.reset.SearchOk := fun _ h => by cases h

end State

open State in
/-- Settles O4, one invariant after another: every table is empty, every slot and place is free. -/
theorem resetMeetsInvariants : Obligations.ResetMeetsInvariants :=
  ⟨reset_agree, reset_accounts, reset_ranges, reset_viewForm, reset_verified, reset_holdsOk, reset_blocksOk, reset_dueOk,
    reset_searchOk⟩

end Sys2Proof.Machine

namespace Sys2Proof.Machine

/-! What an owner can do with a request, once for all requests. -/

/-- `t` is what the owner of some request makes of `s`, in which the request's reservation is made. -/
inductive State.Owned (s : State) : State → Prop
  | posted (done : Completion) : s.Owned (s.post done)
  | status (done : Completion) : s.Owned { s.post done with clp.marks := Conditions.none }
  | identity (node : BitVec 16) (profile transit ports : Byte) (done : Completion) (station : s.sc.station = .unconfigured)
      (good : badNode node.toNat = false) :
      s.Owned ((s.setIdentity node (readIdentity node profile transit ports)).post done)
  | timing (v : Timing) (done : Completion) (station : s.sc.station = .identified) (inRange : v.inRange) :
      s.Owned ((s.setTiming v).post done)
  | profile (i : Nat) (p : Profile) (done : Completion)
      (inRange : (∀ k : Fin 16, s.pf.profiles[k].inRange) → p.inRange) : s.Owned ((s.setProfile i p).post done)
  | join (tag : Tag) (station : s.sc.station = .configured) : s.Owned (s.ownJoin tag)
  | leave (tag : Tag)
      (station : s.sc.station = .listening ∨ s.sc.station = .announcing ∨ s.sc.station = .operating) :
      s.Owned (s.beginLeave tag)
  | leaveMuted (tag : Tag) (station : s.sc.station = .muted) : s.Owned (s.leaveMuted tag)
  | port (p : Nat) (r : PortRecord) (done : Completion) (fitted : p < 16) (station : s.sc.station ≠ .unconfigured)
      (inRange : (s.port p).inRange → r.inRange) : s.Owned ((s.changePort p r).post done)
  | path (r : PathRequest) (station : s.sc.station = .operating ∨ s.sc.station = .muted) :
      s.Owned { s with psu.queue := s.psu.queue ++ [r] }
  | mark (c : Context) (tag : Tag) (context : s.psu.context = some c) (unmarked : c.abortTag = none) :
      s.Owned { s with psu.context := some { c with abortTag := some tag } }
  | unqueue (queue : List PathRequest) (done done' : Completion) (length : queue.length + 1 = s.psu.queue.length)
      (flight : s.psu.context.isSome → queue ≠ []) :
      s.Owned (({ s with psu.queue := queue }.post done).post done')
  | commit (i : Fin 8) (n : BitVec 8) (t tag : Tag) (sub sub' : Substate) (slot : s.slot i = .live sub n t)
      (idle : sub.commitTag = none) (waits : sub'.commitTag = some tag) (uncommitted : sub ≠ .committed) :
      s.Owned (s.setSlot i (.live sub' n t))
  | commitDue (i : Fin 8) (n : BitVec 8) (t tag : Tag) (slot : s.slot i = .live .held n t) :
      s.Owned ((s.setSlot i (.live (.committing tag) n t)).makeDue (holdPlace i) .commit 1)
  | release (i : Fin 8) (sub : Substate) (n : BitVec 8) (t : Tag) (done : Completion) (slot : s.slot i = .live sub n t) :
      s.Owned ((s.releaseLive i sub n t).post done)
  | poll (done : Completion) : s.Owned ({ s with hu.slots := s.hu.slots.map Slot.polled }.post done)
  | block (k : LinkKey) (m : SlotMap) (done : Completion) (valid : k.valid = true)
      (room : (Table.lookup Block.code k.code s.hu.blocks).isSome = true ∨ m = 0 ∨ s.hu.blocks.length < 32) :
      s.Owned ((s.setBlock k m).post done)

namespace State

variable {s : State}

theorem Owned.whenJoined {kind : RequestKind} {tag : Tag} {act : State → State} (h : s.Owned (act s)) :
    s.Owned (s.whenJoined kind tag act) := by
  unfold State.whenJoined
  split
  · exact h
  · exact .posted _

theorem Owned.query {kind : RequestKind} {tag : Tag} {answer : State → Completion} :
    s.Owned (s.whenJoined kind tag (fun s => s.post (answer s))) := .whenJoined (act := fun s => s.post (answer s)) (.posted _)

theorem readTiming_inRange (ri listen watch contest hold commit budget ifg : BitVec 16) :
    (readTiming ri listen watch contest hold commit budget ifg).inRange := by
  simp only [Timing.inRange, readTiming, clampTo]
  omega

theorem readProfile_inRange (scale pass add drop : BitVec 16) : (readProfile scale pass add drop).inRange := by
  have := pass.isLt
  have := add.isLt
  have := drop.isLt
  simp only [Profile.inRange, readProfile, clampTo]
  omega

theorem stepTrim_inRange {f : Nat} {t : Int} (lo : -8 ≤ t) (hi : t ≤ 7) : -8 ≤ stepTrim f t ∧ stepTrim f t ≤ 7 := by
  rw [stepTrim_eq_clamped lo hi]
  split
  · omega
  · split <;> omega

theorem stepped_inRange {p : Profile} (h : p.inRange) (fields : Byte) : (p.stepped fields).inRange := by
  obtain ⟨least, most, pass, add, drop, nlo, nhi, plo, phi⟩ := h
  obtain ⟨nlo', nhi'⟩ := stepTrim_inRange (f := trimNoiseField fields) nlo nhi
  obtain ⟨plo', phi'⟩ := stepTrim_inRange (f := trimPenaltyField fields) plo phi
  exact ⟨least, most, pass, add, drop, nlo', nhi', plo', phi'⟩

theorem takeTagged_length {tag : Tag} {l rest : List PathRequest} {r : PathRequest}
    (h : takeTagged tag l = some (r, rest)) : rest.length + 1 = l.length := by
  induction l generalizing rest with
  | nil => cases h
  | cons x l ih =>
    unfold takeTagged at h
    split at h
    · cases h
      rfl
    · obtain ⟨⟨r', rest'⟩, found, same⟩ := Option.map_eq_some_iff.1 h
      cases same
      simpa using ih found

theorem Owned.abortQueued (tag sought : Tag) {kept queued : List PathRequest}
    (split : s.psu.queue = kept ++ queued) (flight : s.psu.context.isSome → kept ≠ []) :
    s.Owned (s.abortQueued tag sought kept queued) := by
  unfold State.abortQueued
  split
  · rename_i r rest found
    have := takeTagged_length found
    refine .unqueue _ _ _ ?_ fun some => ?_
    · rw [split, List.length_append, List.length_append]
      omega
    · simp [flight some]
  · exact .posted _

theorem Owned.ownAbort (tag sought : Tag) : s.Owned (s.ownAbort tag sought) := by
  unfold State.ownAbort
  split
  · rename_i c r rest context queue
    split
    · rename_i found
      exact .mark c tag context found.2
    · exact .abortQueued tag sought queue fun _ => List.cons_ne_nil r []
  · rename_i other
    cases queue : s.psu.queue with
    | nil => exact .posted _
    | cons r rest =>
      refine .abortQueued tag sought queue fun some => ?_
      obtain ⟨c, context⟩ := Option.isSome_iff_exists.1 some
      exact absurd queue (other c r rest context)

theorem Owned.commitSlot (tag : Tag) (i : Fin 8) : s.Owned (s.commitSlot tag i) := by
  unfold State.commitSlot
  split
  · rename_i n t slot
    exact .commit i n t tag _ _ slot rfl rfl nofun
  · rename_i e n t slot
    exact .commit i n t tag _ _ slot rfl rfl nofun
  · rename_i n t slot
    exact .commitDue i n t tag slot
  all_goals exact .posted _

theorem Owned.releaseSlot (tag : Tag) (i : Fin 8) : s.Owned (s.releaseSlot tag i) := by
  unfold State.releaseSlot
  split
  · rename_i sub n t slot
    exact .release i sub n t _ slot
  all_goals exact .posted _

theorem badKey_eq_false_iff {k : LinkKey} (node : k.node < 65536) : badKey k = false ↔ k.valid = true := by
  rw [← Bool.not_eq_true, badKey_iff, LinkKey.valid, Bool.and_eq_true, decide_eq_true_eq, validNode_iff_of_lt node]
  omega

theorem Owned.ownBlock (tag : Tag) {k : LinkKey} (node : k.node < 65536) (operation : Byte) (m : SlotMap) :
    s.Owned (s.ownBlock tag k operation m) := by
  unfold State.ownBlock
  split
  · exact .posted _
  · split
    · exact .posted _
    · rename_i good
      unfold State.applyBlock
      dsimp only
      generalize (if operation = 0 then s.blockMask k ||| m else s.blockMask k &&& ~~~m) = mask
      split
      · exact .posted _
      · rename_i room
        refine .block k mask _ ((badKey_eq_false_iff node).1 (Bool.eq_false_of_not_eq_true (not_or.1 good).1)) ?_
        rw [Bool.and_eq_true, Bool.and_eq_true, Bool.not_eq_true', bne_iff_ne] at room
        by_cases known : (Table.lookup Block.code k.code s.hu.blocks).isSome = true
        · exact .inl known
        · refine .inr (or_iff_not_imp_left.2 fun ne => Nat.lt_of_not_le fun full => room ⟨⟨?_, ne⟩, ?_⟩)
          · exact Bool.eq_false_of_not_eq_true known
          · exact decide_eq_true full

theorem Owned.onPort {kind : RequestKind} {tag : Tag} {p : Nat} {act : State → State}
    (h : p < 16 → s.sc.station ≠ .unconfigured → s.Owned (act s)) : s.Owned (s.onPort kind tag p act) := by
  unfold State.onPort
  split
  · exact .posted _
  · rename_i station
    split
    · exact .posted _
    · rename_i fitted
      exact h (by omega) station

theorem Owned.recordTrace (tag : Tag) {p : Nat} (fitted : p < 16) (station : s.sc.station ≠ .unconfigured) {trace : Trace}
    (inRange : trace.inRange = true) : s.Owned (s.recordTrace tag p trace) := by
  refine .port p _ _ fitted station fun h => ?_
  obtain ⟨lo, hi, noise, dlo, dhi, -⟩ := h
  exact ⟨lo, hi, noise, dlo, dhi, inRange⟩

theorem heard_inRange {word : BitVec 32} {node far : Nat} (read : readTraceWord word = some (node, far)) :
    (Trace.heard node far).inRange = true := by
  obtain ⟨⟨valid, -⟩, rfl, rfl⟩ := (readTraceWord_eq_some_iff word node far).1 read
  have := (word.extractLsb' 12 4).isLt
  simp only [Trace.inRange, Bool.and_eq_true, decide_eq_true_eq]
  exact ⟨valid, by omega⟩

theorem written_inRange {r : PortRecord} (h : r.inRange) (enabled : Byte) (cost noise dispersion : BitVec 16)
    (used : SlotMap) : (r.written enabled cost noise dispersion used).inRange := by
  obtain ⟨-, -, -, -, -, trace⟩ := h
  have := cost.isLt
  have := noise.isLt
  have := BitVec.le_toInt dispersion
  have := BitVec.toInt_lt (x := dispersion)
  refine ⟨?_, ?_, ?_, ?_, ?_, trace⟩ <;> simp only [PortRecord.written] <;> omega

end State

open State

/-- The owner of every request does one of the things that `Owned` lists. -/
theorem owned_of_requestOwner {c : Instr} {own : State → State} (h : requestOwner c = some own) (s : State) :
    s.Owned (own s) := by
  cases c <;> cases h
  case identity =>
    unfold State.ownIdentity
    split
    · exact .posted _
    · rename_i station
      split
      · exact .posted _
      · rename_i good
        exact .identity _ _ _ _ _ (not_not.1 station) (Bool.eq_false_of_not_eq_true good)
  case timing =>
    unfold State.ownTiming
    split
    · exact .posted _
    · rename_i station
      exact .timing _ _ (not_not.1 station) (readTiming_inRange ..)
  case profile =>
    unfold State.ownProfile
    split
    · exact .posted _
    · split
      · exact .posted _
      · exact .profile _ _ _ fun _ => readProfile_inRange ..
  case join =>
    by_cases station : s.sc.station = .configured
    · exact .join _ station
    · unfold State.ownJoin
      rw [if_pos station]
      exact .posted _
  case leave =>
    unfold State.ownLeave
    split
    · rename_i station
      exact .leave _ (.inl station)
    · rename_i station
      exact .leave _ (.inr (.inl station))
    · rename_i station
      exact .leave _ (.inr (.inr station))
    · rename_i station
      exact .leaveMuted _ station
    · exact .posted _
    · exact .posted _
  case portSet =>
    exact .onPort fun fitted station => .port _ _ _ fitted station fun h => written_inRange h ..
  case portTrace =>
    refine .onPort fun fitted station => ?_
    split
    · exact .posted _
    · rename_i node far read
      refine .recordTrace _ fitted station ?_
      split
      · rfl
      · exact heard_inRange read
  case portTraceLoss => exact .onPort fun fitted station => .recordTrace _ fitted station rfl
  case path =>
    unfold State.ownPath
    split
    · exact .posted _
    · rename_i station
      split
      · exact .posted _
      · exact .path _ (by tauto)
  case abort => exact .ownAbort _ _
  case holdCommit =>
    refine .whenJoined ?_
    split
    · exact .commitSlot _ _
    · exact .posted _
  case holdRelease =>
    refine .whenJoined ?_
    split
    · exact .releaseSlot _ _
    · exact .posted _
  case poll => exact .whenJoined (.poll _)
  case blockSet tag node port operation mask => exact .ownBlock _ node.isLt _ _
  case blockClear tag node port operation mask => exact .ownBlock _ node.isLt _ _
  case trim tag index fields =>
    unfold State.ownTrim
    split
    · exact .posted _
    · split
      · exact .posted _
      · rename_i inside
        have lt : index.toNat < 16 := by omega
        refine .profile _ _ _ fun h => stepped_inRange ?_ _
        rw [profileAt_eq_getElem _ lt]
        exact h ⟨_, lt⟩
  case status => exact .status _
  all_goals exact .query

end Sys2Proof.Machine

namespace Sys2Proof.Machine

namespace State

variable {s t : State}

/-! JOIN and LEAVE leave the block table, the profiles, the ports and the configuration; LEAVE empties the path queue. -/

/-- What neither JOIN nor LEAVE writes. -/
def settings (s : State) : List Block × Pf × Pt × Option Identity × Option Timing :=
  (s.hu.blocks, s.pf, s.pt, s.sc.identity, s.sc.timing)

theorem settings_of_lasting (h : t.lasting = s.lasting) : t.settings = s.settings := by
  simp only [State.lasting, Prod.mk.injEq] at h
  obtain ⟨blocks, pf, pt, -, identity, timing⟩ := h
  simp only [State.settings, blocks, pf, pt, identity, timing]

theorem Work.settings (h : Work outsideBlocks s t) : t.settings = s.settings := settings_of_lasting h.lasting

theorem lasting_makeDue (s : State) (p : Fin 10) (k : FrameKind) (c : Fin 3) :
    (s.makeDue p k c).lasting = s.lasting := by
  rw [State.makeDue_eq]
  rfl

theorem lasting_withdrawEntry (s : State) (p : Fin 10) : (s.withdrawEntry p).lasting = s.lasting := by
  rw [State.withdrawEntry_eq]
  rfl

/-- The state in which a membership begins, its own record stored (R23, R56). -/
def ownStored (s : State) : State := s.joinAds.insertOwn s.ownLinkSet

/-- The state in which a membership begins, before the SOLICIT is due (R174). -/
def joined (tag : Tag) (s : State) : State :=
  { s.ownStored with
    lac.budget := s.ownStored.fullBudget, lac.watch := .running 0, sc.riTimer := some 0, sc.listen := 0
    sc.joinWaiting := some tag }

theorem ownStored_sc (s : State) : s.ownStored.sc = s.sc := (Work.insertOwn s.joinAds _).sc

theorem joined_budget (s : State) (tag : Tag) : (s.joined tag).lac.budget = s.fullBudget := by
  show s.ownStored.fullBudget = _
  rw [State.fullBudget, State.timing, ownStored_sc]
  rfl

/-- JOIN in CONFIGURED (R174). -/
theorem ownJoin_configured (station : s.sc.station = .configured) (tag : Tag) :
    s.ownJoin tag = { (s.joined tag).makeDue solicitPlace .solicit 1 with sc.station := .listening } := by
  unfold State.ownJoin
  exact if_neg (not_not_intro station)

theorem lasting_ownJoin (station : s.sc.station = .configured) (tag : Tag) : (s.ownJoin tag).lasting = s.lasting := by
  rw [ownJoin_configured station]
  refine (lasting_makeDue (s.joined tag) solicitPlace .solicit 1).trans ?_
  exact (Work.insertOwn s.joinAds _).lasting

theorem settings_foldl_post {α : Type} (f : α → Completion) (l : List α) (s : State) :
    (l.foldl (fun s r => s.post (f r)) s).settings = s.settings := by
  induction l generalizing s with
  | nil => rfl
  | cons r l ih => exact ih _

theorem settings_flushPaths (s : State) : s.flushPaths.settings = s.settings := by
  unfold State.flushPaths
  dsimp only
  split
  · rename_i c r rest _ _
    refine (settings_foldl_post _ rest _).trans ?_
    unfold State.completeAbort
    split <;> rfl
  · exact settings_foldl_post _ _ _

theorem psu_foldl_post {α : Type} (f : α → Completion) (l : List α) (s : State) :
    (l.foldl (fun s r => s.post (f r)) s).psu = s.psu := by
  induction l generalizing s with
  | nil => rfl
  | cons r l ih => exact ih _

theorem flushPaths_psu (s : State) : s.flushPaths.psu = ⟨[], none⟩ := by
  unfold State.flushPaths
  dsimp only
  split
  · rename_i c r rest _ _
    refine (psu_foldl_post _ rest _).trans ?_
    unfold State.completeAbort
    split <;> rfl
  · exact psu_foldl_post _ _ _

/-- LEAVE up to the withdraw ADVERT: what waits is completed, and the slots are settled (R112, R136, R180). -/
def leaves (s : State) : State :=
  (((s.completeJoin .aborted).flushPaths.leaveHolds).withdrawEntry solicitPlace).makeDue advertPlace .withdraw 0

/-- LEAVE waits for the withdraw ADVERT (R180). -/
def leaveWaits (tag : Tag) (s : State) : State := { s with sc.leaveWaiting := some tag, sc.station := .leaving }

theorem beginLeave_eq (s : State) (tag : Tag) : s.beginLeave tag = s.leaves.leaveWaits tag := by
  unfold State.beginLeave State.leaves State.leaveWaits
  dsimp only

theorem settings_leaveWaits (s : State) (tag : Tag) : (s.leaveWaits tag).settings = s.settings := rfl

theorem psu_leaveWaits (s : State) (tag : Tag) : (s.leaveWaits tag).psu = s.psu := rfl

theorem lasting_leaves (s : State) :
    s.leaves.lasting = (s.completeJoin .aborted).flushPaths.lasting := by
  unfold State.leaves
  rw [lasting_makeDue, lasting_withdrawEntry, (Work.leaveHolds _).blocks_of_holds.lasting]

theorem settings_beginLeave (s : State) (tag : Tag) : (s.beginLeave tag).settings = s.settings := by
  calc (s.beginLeave tag).settings = s.leaves.settings := by rw [beginLeave_eq, settings_leaveWaits]
    _ = (s.completeJoin .aborted).flushPaths.settings := settings_of_lasting (lasting_leaves s)
    _ = (s.completeJoin .aborted).settings := settings_flushPaths _
    _ = s.settings := settings_of_lasting (lasting_completeJoin s _)

theorem psu_of_lasting (h : t.lasting = s.lasting) : t.psu = s.psu := by
  simp only [State.lasting, Prod.mk.injEq] at h
  exact h.2.2.2.1

theorem beginLeave_psu (s : State) (tag : Tag) : (s.beginLeave tag).psu = ⟨[], none⟩ := by
  rw [beginLeave_eq, psu_leaveWaits, psu_of_lasting (lasting_leaves s), flushPaths_psu]

/-- The LEAVE is noted, its completion to come (R182). -/
def noteLeave (tag : Tag) (s : State) : State := { s with sc.leaveWaiting := some tag }

theorem leaveMuted_eq (s : State) (tag : Tag) :
    s.leaveMuted tag = (s.flushPaths.leaveHolds.noteLeave tag).finishLeave .ok := by
  unfold State.leaveMuted State.noteLeave
  dsimp only

theorem lasting_noteLeave (s : State) (tag : Tag) : (s.noteLeave tag).lasting = s.lasting := rfl

theorem lasting_leaveMuted (s : State) (tag : Tag) : (s.leaveMuted tag).lasting = s.flushPaths.lasting := by
  rw [leaveMuted_eq, lasting_finishLeave, lasting_noteLeave, (Work.leaveHolds _).blocks_of_holds.lasting]

theorem settings_leaveMuted (s : State) (tag : Tag) : (s.leaveMuted tag).settings = s.settings :=
  (settings_of_lasting (lasting_leaveMuted s tag)).trans (settings_flushPaths s)

theorem leaveMuted_psu (s : State) (tag : Tag) : (s.leaveMuted tag).psu = ⟨[], none⟩ :=
  (psu_of_lasting (lasting_leaveMuted s tag)).trans (flushPaths_psu s)

/-! A port change: the record is written, and the blocks work from LISTENING on (R48, R50). -/

theorem changePort_cases (s : State) (p : Nat) (r : PortRecord) :
    (s.changePort p r = s ∧ s.port p = r) ∨ (s.changePort p r = s.setPort p r ∧ s.sc.station.joined = false) ∨
      (s.changePort p r = (s.setPort p r).rebuild ∧ s.sc.station.joined = true) := by
  unfold State.changePort
  split
  · rename_i same
    exact .inl ⟨rfl, same⟩
  · split
    · rename_i joined
      exact .inr (.inr ⟨rfl, joined⟩)
    · rename_i joined
      exact .inr (.inl ⟨rfl, Bool.eq_false_of_not_eq_true joined⟩)

/-- A port change writes a record, if any, and is otherwise work of the blocks. -/
theorem changePort_work (s : State) (p : Nat) (r : PortRecord) :
    s.changePort p r = s ∨ (Work outsideBlocks (s.setPort p r) (s.changePort p r) ∧
      (s.changePort p r = s.setPort p r ∨ s.sc.station.joined = true)) := by
  rcases changePort_cases s p r with ⟨same, -⟩ | ⟨written, -⟩ | ⟨rebuilt, joined⟩
  · exact .inl same
  · exact .inr ⟨written ▸ .refl _, .inl written⟩
  · exact .inr ⟨rebuilt ▸ .rebuild _, .inr joined⟩

theorem changePort_blocks (s : State) (p : Nat) (r : PortRecord) : (s.changePort p r).hu.blocks = s.hu.blocks := by
  rcases changePort_work s p r with same | ⟨work, -⟩
  · rw [same]
  · exact work.blocks

theorem changePort_psu (s : State) (p : Nat) (r : PortRecord) : (s.changePort p r).psu = s.psu := by
  rcases changePort_work s p r with same | ⟨work, -⟩
  · rw [same]
  · exact work.psu

end State

end Sys2Proof.Machine

namespace Sys2Proof.Machine

/-! What a table's size becomes. -/

namespace Table

variable {α : Type} {key : α → Nat}

theorem length_put_le {l : List α} (h : Sorted key l) (x : α) : (put key x l).length ≤ l.length + 1 := by
  by_cases new : ∀ y ∈ l, key y ≠ key x
  · exact (length_put_new h x new).le
  · push Not at new
    obtain ⟨y, mem, same⟩ := new
    rw [put_eq_map h mem same, List.length_map]
    exact Nat.le_succ _

theorem length_put_known {l : List α} (h : Sorted key l) {x y : α} (found : lookup key (key x) l = some y) :
    (put key x l).length = l.length := by
  obtain ⟨mem, same⟩ := (lookup_eq_some h).1 found
  rw [put_eq_map h mem same, List.length_map]

theorem length_erase_lt {l : List α} {x : α} (mem : x ∈ l) : (erase key (key x) l).length < l.length :=
  List.length_filter_lt_length_iff_exists.2 ⟨x, mem, by simp⟩

theorem mem_of_mem_erase {l : List α} {x : α} {k : Nat} (mem : x ∈ erase key k l) : x ∈ l := List.mem_of_mem_filter mem

/-- What each record of a table has, and the record put, each record of the new table has. -/
theorem forall_put {l : List α} (h : Sorted key l) {P : α → Prop} {x : α} (all : ∀ y ∈ l, P y) (new : P x) :
    ∀ y ∈ put key x l, P y := by
  intro y mem
  rcases (mem_put h).1 mem with rfl | ⟨old, -⟩
  · exact new
  · exact all y old

end Table

/-! A step of a search: it keeps the request and the mark, and the context within its sizes (R117, R125). -/

/-- The context `c'` comes from `c` by a step of the search of the same request. -/
structure Context.Runs (c c' : Context) : Prop where
  request : c'.request = c.request
  abortTag : c'.abortTag = c.abortTag
  ok : c.Ok → c'.Ok

namespace Context

variable {c c' c'' : Context}

theorem Runs.refl (c : Context) : c.Runs c := ⟨rfl, rfl, id⟩

theorem Runs.trans (h : c.Runs c') (h' : c'.Runs c'') : c.Runs c'' :=
  ⟨h'.request.trans h.request, h'.abortTag.trans h.abortTag, fun ok => h'.ok (h.ok ok)⟩

theorem Runs.foldl {α : Type} {f : Context → α → Context} (step : ∀ (c : Context) x, c.Runs (f c x)) (l : List α) (c : Context) :
    c.Runs (l.foldl f c) := by
  induction l generalizing c with
  | nil => exact .refl c
  | cons x l ih => exact (step c x).trans (ih _)

theorem Runs.nextWindow (c : Context) : c.Runs c.nextWindow := by
  unfold Context.nextWindow
  split <;> exact ⟨rfl, rfl, fun ⟨fs, fr, tr, f, t, b⟩ => ⟨fs, fr, tr, f, t, b⟩⟩

theorem Runs.prune (c : Context) : c.Runs c.prune := ⟨rfl, rfl, fun ⟨fs, fr, tr, f, t, b⟩ => ⟨fs, fr, tr, f, t, b⟩⟩

theorem Runs.endPassWith (r : PassResult) (c : Context) : c.Runs (c.endPassWith r) := by
  have noted (result : Option PassResult) (phase : SearchPhase) :
      c.Runs { c with bestResult := result, phase := phase } :=
    ⟨rfl, rfl, fun ⟨fs, fr, tr, f, t, b⟩ => ⟨fs, fr, tr, f, t, b⟩⟩
  unfold Context.endPassWith
  split
  · exact (noted _ c.phase).trans (.nextWindow _)
  · exact noted _ _

theorem ok_clearPass (c : Context) : c.clearPass.Ok :=
  ⟨List.Pairwise.nil, Nat.zero_le _, Nat.zero_le _, nofun, nofun, nofun⟩

theorem Runs.clearPass (c : Context) : c.Runs c.clearPass := ⟨rfl, rfl, fun _ => ok_clearPass c⟩

/-- The start of a pass leaves the source's label in the frontier (R127). -/
theorem Runs.startPass (s : State) (c : Context) : c.Runs (s.startPass c) := by
  have cleared := Runs.clearPass c
  unfold State.startPass
  dsimp only
  split
  · exact cleared.trans (.nextWindow _)
  · split
    · exact cleared.trans (.nextWindow _)
    · rename_i within
      refine ⟨rfl, rfl, fun _ => ⟨List.pairwise_singleton .., by simp, Nat.zero_le _, ?_, nofun, nofun⟩⟩
      intro l mem
      rw [List.mem_singleton.1 mem]
      exact ⟨Nat.le_of_not_lt within, Nat.zero_le _⟩

/-- A frontier of another content, of the same form, is a step of the search. -/
theorem Runs.withFrontier {c : Context} (frontier : List Label)
    (form : c.Ok → Table.Sorted Label.node frontier ∧ frontier.length ≤ 32 ∧ ∀ l ∈ frontier, l.within c.request) :
    c.Runs { c with frontier := frontier } :=
  ⟨rfl, rfl, fun ok => ⟨(form ok).1, (form ok).2.1, ok.treeRoom, (form ok).2.2, ok.tree, ok.best⟩⟩

theorem Runs.arrive {l : Label} (c : Context) (within : l.within c.request) : c.Runs (c.arrive l) := by
  have better (inWindow : ¬(l.dispersion < c.request.dmin ∨ c.request.dmax < l.dispersion)) :
      c.Runs { c with bestArrival := some l } := by
    refine ⟨rfl, rfl, fun ⟨fs, fr, tr, f, t, b⟩ => ⟨fs, fr, tr, f, t, ?_⟩⟩
    rintro _ ⟨⟩
    have := not_or.1 inWindow
    exact ⟨within, Int.not_lt.1 this.1, Int.not_lt.1 this.2⟩
  unfold Context.arrive
  split
  · exact .refl c
  · rename_i inWindow
    split
    · exact better inWindow
    · split
      · exact better inWindow
      · exact .refl c

theorem Runs.reach {l : Label} (c : Context) (within : l.within c.request) : c.Runs (c.reach l) := by
  unfold Context.reach
  split
  · rename_i o found
    split
    · refine .withFrontier _ fun ok => ⟨Table.sorted_put ok.frontierSorted l, ?_, ?_⟩
      · rw [Table.length_put_known ok.frontierSorted found]
        exact ok.frontierRoom
      · exact Table.forall_put ok.frontierSorted ok.frontier within
    · exact .refl c
  · split
    · rename_i room
      refine .withFrontier _ fun ok => ⟨Table.sorted_put ok.frontierSorted l, ?_, ?_⟩
      · exact (Table.length_put_le ok.frontierSorted l).trans room
      · exact Table.forall_put ok.frontierSorted ok.frontier within
    · split
      · exact .prune c
      · rename_i w worst
        split
        · exact .prune c
        · refine .trans (.withFrontier _ fun ok => ?_) (.prune _)
          have sorted := Table.sorted_erase ok.frontierSorted w.node
          refine ⟨Table.sorted_put sorted l, ?_, Table.forall_put sorted (fun x mem => ?_) within⟩
          · have := Table.length_put_le sorted l
            have := Table.length_erase_lt (key := Label.node) (worstLabel_mem worst)
            have := ok.frontierRoom
            omega
          · exact ok.frontier x (Table.mem_of_mem_erase mem)

/-- A label formed over a link that is not skipped keeps the hop limit (R129, R130). -/
theorem hops_le_of_not_skips {s : State} {c : Context} {n : Label} {l : LinkRecord} {far : NodeRecord}
    (taken : ¬s.skipsLink c n l far = true) : n.hops + 1 ≤ c.request.maxHops := by
  simp only [State.skipsLink, Bool.or_eq_true, not_or, decide_eq_true_eq] at taken
  exact Nat.le_of_not_lt taken.2

theorem Runs.extendLink (s : State) (n : Label) (fromNode : NodeRecord) (c : Context) (l : LinkRecord) :
    c.Runs (s.extendLink n fromNode c l) := by
  unfold State.extendLink
  split
  · exact .refl c
  · split
    · exact .refl c
    · rename_i taken
      dsimp only
      split
      · exact .refl c
      · rename_i cheap
        have within : (c.formLabel n fromNode _ l).within c.request := ⟨Nat.le_of_not_lt cheap, hops_le_of_not_skips taken⟩
        split
        · exact .arrive c within
        · exact .reach c within

theorem Runs.extend (s : State) (n : Label) (c : Context) : c.Runs (s.extend n c) := by
  unfold State.extend
  split
  · exact .refl c
  · exact .foldl (fun c l => .extendLink s n _ c l) _ c

theorem Runs.settle (s : State) {n : Label} {c : Context} (mem : n ∈ c.frontier) : c.Runs (s.settle n c) := by
  have taken : c.Runs { c with frontier := Table.erase Label.node n.node c.frontier } := by
    refine .withFrontier _ fun ok => ⟨Table.sorted_erase ok.frontierSorted _, ?_, ?_⟩
    · exact (List.length_filter_le ..).trans ok.frontierRoom
    · exact fun l mem => ok.frontier l (Table.mem_of_mem_erase mem)
  unfold State.settle
  dsimp only
  split
  · exact taken.trans (.prune _)
  · rename_i room
    refine .trans (c' := { c with frontier := Table.erase Label.node n.node c.frontier, tree := c.tree ++ [n] })
      ⟨rfl, rfl, fun ok => ?_⟩ (.extend s n _)
    obtain ⟨fs, fr, -, f, t, b⟩ := taken.ok ok
    refine ⟨fs, fr, ?_, f, ?_, b⟩
    · rw [List.length_append]
      exact Nat.lt_of_not_le room
    · intro l of
      rcases List.mem_append.1 of with old | new
      · exact t l old
      · rw [List.mem_singleton.1 new]
        exact ok.frontier n mem

theorem Runs.select (s : State) (c : Context) : c.Runs (s.select c) := by
  unfold State.select
  split
  · exact .nextWindow c
  · exact .endPassWith _ c
  · rename_i least _
    exact .settle s (leastLabel_mem least)
  · split
    · exact .endPassWith _ c
    · rename_i least _ _
      exact .settle s (leastLabel_mem least)

end Context

/-! What a step of the path search can do, once for its five events. -/

/-- `t` is what an event of the path search makes of `s`. -/
inductive State.Searched (s : State) : State → Prop
  | unchanged : s.Searched s
  | start (r : PathRequest) (rest : List PathRequest) (idle : s.psu.context = none) (queue : s.psu.queue = r :: rest) :
      s.Searched { s with psu.context := some (s.newContext r) }
  | step (c c' : Context) (context : s.psu.context = some c) (unmarked : c.abortTag = none) (run : c.Runs c') :
      s.Searched (s.setContext c')
  | ended (done : Completion) (flight : s.psu.context.isSome ∨ s.psu.queue ≠ [])
      (unmarked : s.psu.context.bind Context.abortTag = none) : s.Searched (s.endSearch done)
  | aborted (c : Context) (context : s.psu.context = some c) : s.Searched (s.abortSearch c)
  | held (c : Context) (r : PassResult) (i : Fin 8) (done : Completion) (context : s.psu.context = some c)
      (unmarked : c.abortTag = none) (operates : s.sc.station ≠ .muted) (free : s.freeSlot = some i)
      (stands : r.path.all (s.linkStands r.window c.request.width) = true) :
      s.Searched ((s.createHold i c.request.tag c.request.priority r.window c.request.width
        (r.path.map Prod.fst)).endSearch done)

namespace State

variable {s : State}

theorem Searched.searchStep {phase : SearchPhase} {act : Context → State → State}
    (h : ∀ c, s.psu.context = some c → c.abortTag = none → s.Searched (act c s)) :
    s.Searched (s.searchStep phase act) := by
  unfold State.searchStep
  split
  · exact .unchanged
  · rename_i c context
    split
    · exact .aborted c context
    · rename_i unmarked
      split
      · exact h c context (by simpa using unmarked)
      · exact .unchanged

theorem Searched.startSearch (s : State) : s.Searched s.startSearch := by
  unfold State.startSearch
  split
  · rename_i r rest idle queue
    dsimp only
    split
    · exact .start r rest idle queue
    · exact .ended _ (.inr (by rw [queue]; nofun)) (by rw [idle]; rfl)
  · exact .unchanged

theorem Searched.completeSearch {c : Context} (context : s.psu.context = some c) (unmarked : c.abortTag = none) :
    s.Searched (s.completeSearch c) := by
  have ends (done : Completion) : s.Searched (s.endSearch done) :=
    .ended done (.inl (by rw [context]; rfl)) (by rw [context]; exact unmarked)
  unfold State.completeSearch
  split
  · exact ends _
  · rename_i r _
    split
    · rename_i stands
      split
      · unfold State.endHeld
        dsimp only
        split
        · exact ends _
        · rename_i operates
          split
          · exact ends _
          · rename_i i free
            exact .held c r i _ context unmarked operates free stands
      · exact ends _
    · exact ends _

/-- The five events of the path search do what `Searched` lists. -/
theorem searched_of_eventWork {c : Instr} {work : State → State} (h : eventWork c = some work)
    (search : searchEvent c = true) (s : State) : s.Searched (work s) := by
  cases c <;> cases search <;> cases h
  case searchStart => exact .startSearch s
  case passStart => exact .searchStep fun c context unmarked => .step c _ context unmarked (.startPass s c)
  case selectionStep => exact .searchStep fun c context unmarked => .step c _ context unmarked (.select s c)
  case searchCompletion => exact .searchStep fun c context unmarked => .completeSearch context unmarked
  case searchAbortEnd =>
    unfold State.endMarked
    split
    · rename_i c context
      split
      · exact .aborted c context
      · exact .unchanged
    · exact .unchanged

theorem lasting_createHold (s : State) (i : Fin 8) (tag : Tag) (priority start width : Nat) (links : List LinkKey) :
    (s.createHold i tag priority start width links).lasting = s.lasting := lasting_makeDue _ _ _ _

theorem settings_endSearch (s : State) (done : Completion) : (s.endSearch done).settings = s.settings := rfl

theorem psu_endSearch (s : State) (done : Completion) : (s.endSearch done).psu = ⟨s.psu.queue.tail, none⟩ := rfl

theorem settings_completeAbort (s : State) (tag : Option Tag) : (s.completeAbort tag).settings = s.settings := by
  unfold State.completeAbort
  split <;> rfl

theorem psu_completeAbort (s : State) (tag : Option Tag) : (s.completeAbort tag).psu = s.psu := by
  unfold State.completeAbort
  split <;> rfl

/-- The search writes no block table, profile, port or configuration. -/
theorem Searched.settings {t : State} (h : s.Searched t) : t.settings = s.settings := by
  cases h with
  | unchanged | start | step | ended => rfl
  | aborted c => exact settings_completeAbort _ _
  | held => rw [settings_endSearch, settings_of_lasting (lasting_createHold ..)]

/-- A search keeps its form. -/
theorem Searched.searchOk {t : State} (h : s.Searched t) (ok : s.SearchOk) : t.SearchOk := by
  cases h with
  | unchanged => exact ok
  | start =>
    rintro c ⟨⟩
    exact ⟨List.Pairwise.nil, Nat.zero_le _, Nat.zero_le _, nofun, nofun, nofun⟩
  | step c c' context unmarked run =>
    rintro _ ⟨⟩
    exact run.ok (ok c context)
  | aborted c =>
    intro c found
    rw [State.abortSearch, psu_completeAbort, psu_endSearch] at found
    cases found
  | ended | held =>
    intro c found
    rw [psu_endSearch] at found
    cases found

/-- What every event keeps but for the search: the block table, the profiles, the ports and the configuration. -/
theorem settings_event {c : Instr} {work : State → State} (h : eventWork c = some work) (s : State) :
    (work s).settings = s.settings := by
  cases search : searchEvent c with
  | false => exact settings_of_lasting (lasting_event h search s)
  | true => exact (searched_of_eventWork h search s).settings

theorem blocks_of_settings {t : State} (h : t.settings = s.settings) : t.hu.blocks = s.hu.blocks := by
  simp only [State.settings, Prod.mk.injEq] at h
  exact h.1

/-! The block table keeps its form (R86, R87). -/

theorem BlocksOk.setBlock (ok : s.BlocksOk) {k : LinkKey} (valid : k.valid = true) {m : SlotMap}
    (room : (Table.lookup Block.code k.code s.hu.blocks).isSome = true ∨ m = 0 ∨ s.hu.blocks.length < 32) :
    (s.setBlock k m).BlocksOk := by
  unfold State.setBlock
  split
  · exact ok
  · by_cases empty : m = 0
    · simp only [empty, if_true]
      exact ⟨Table.sorted_erase ok.sorted _, fun b mem => ok.keys b (Table.mem_of_mem_erase mem),
        fun b mem => ok.marked b (Table.mem_of_mem_erase mem), (List.length_filter_le ..).trans ok.room⟩
    · simp only [empty, if_false]
      refine ⟨Table.sorted_put ok.sorted _, Table.forall_put ok.sorted ok.keys valid,
        Table.forall_put ok.sorted ok.marked empty, ?_⟩
      rcases room with known | none | room
      · obtain ⟨b, found⟩ := Option.isSome_iff_exists.1 known
        exact (Table.length_put_known (x := ⟨k, m⟩) ok.sorted found).trans_le ok.room
      · exact absurd none empty
      · exact (Table.length_put_le ok.sorted _).trans room

/-- The block table after a request (R87). -/
theorem Owned.blocksOk {t : State} (h : s.Owned t) (ok : s.BlocksOk) : t.BlocksOk := by
  cases h with
  | block k m done valid room => exact (ok.setBlock valid room).of_eq rfl
  | join tag station => exact ok.of_eq (blocks_of_settings (settings_of_lasting (lasting_ownJoin station tag)))
  | leave tag => exact ok.of_eq (blocks_of_settings (settings_beginLeave s tag))
  | leaveMuted tag => exact ok.of_eq (blocks_of_settings (settings_leaveMuted s tag))
  | port p r done => exact ok.of_eq (changePort_blocks s p r)
  | commitDue i n t tag => exact ok.of_eq (blocks_of_settings (settings_of_lasting (lasting_makeDue _ _ _ _)))
  | release i sub n t done => exact ok.of_eq (Work.releaseLive s i sub n t).blocks_of_holds.blocks
  | _ => exact ok.of_eq rfl

theorem SearchOk.of_eq {t : State} (ok : s.SearchOk) (same : t.psu.context = s.psu.context) : t.SearchOk := by
  intro c found
  exact ok c (same ▸ found)

/-- The search after a request. -/
theorem Owned.searchOk {t : State} (h : s.Owned t) (ok : s.SearchOk) : t.SearchOk := by
  cases h with
  | mark c tag context unmarked =>
    rintro _ ⟨⟩
    obtain ⟨fs, fr, tr, f, t, b⟩ := ok c context
    exact ⟨fs, fr, tr, f, t, b⟩
  | join tag station => exact ok.of_eq (congrArg Psu.context (psu_of_lasting (lasting_ownJoin station tag)))
  | leave tag => exact fun c found => by rw [beginLeave_psu] at found; cases found
  | leaveMuted tag => exact fun c found => by rw [leaveMuted_psu] at found; cases found
  | port p r done => exact ok.of_eq (congrArg Psu.context (changePort_psu s p r))
  | commitDue i n t tag => exact ok.of_eq (congrArg Psu.context (psu_of_lasting (lasting_makeDue _ _ _ _)))
  | release i sub n t done => exact ok.of_eq (congrArg Psu.context (Work.releaseLive s i sub n t).blocks_of_holds.psu)
  | block k m =>
    refine ok.of_eq ?_
    show (s.setBlock k m).psu.context = _
    unfold State.setBlock
    split <;> rfl
  | _ => exact ok.of_eq rfl

end State

open State

/-- Settles O47: only BLOCK writes the block table. -/
theorem everyStepKeepsBlocks : Obligations.EveryStepKeepsBlocks := by
  unfold Obligations.EveryStepKeepsBlocks
  intro s t
  refine step_keeps (P := State.BlocksOk) ?inner ?reset ?fetch ?request ?event ?idle
  case inner => exact fun same ok => ok.of_eq (congrArg (fun x => x.hu.blocks) same)
  case reset => exact reset_blocksOk
  case fetch => exact fun n ok => ok.of_eq rfl
  case request => exact fun owner _ ok => (owned_of_requestOwner owner _).blocksOk (ok.of_eq rfl)
  case event => exact fun worked ok => ok.of_eq (blocks_of_settings (settings_event worked _))
  case idle => exact fun ok => ok.of_eq rfl

/-- Settles O58: a search is written by its own steps, by the mark of an ABORT and by the flush of LEAVE. -/
theorem everyStepKeepsSearch : Obligations.EveryStepKeepsSearch := by
  unfold Obligations.EveryStepKeepsSearch
  intro s t
  refine step_keeps (P := State.SearchOk) ?inner ?reset ?fetch ?request ?event ?idle
  case inner => exact fun same ok => SearchOk.of_eq ok (congrArg (fun x => x.psu.context) same)
  case reset => exact reset_searchOk
  case fetch => exact fun n ok => ok
  case request => exact fun owner _ ok => (owned_of_requestOwner owner _).searchOk ok
  case event =>
    intro c work s worked ok
    cases search : searchEvent c with
    | false => exact SearchOk.of_eq ok (congrArg Psu.context (psu_of_lasting (lasting_event worked search s)))
    | true => exact (searched_of_eventWork worked search s).searchOk ok
  case idle => exact fun ok => ok

end Sys2Proof.Machine

namespace Sys2Proof.Machine

/-! An event is a chain of parts, each the work of one block; so what each part keeps, every event keeps. -/

/-- The work of one block within an event of a membership, on the view, the holds or the ADVERT's entry. -/
inductive State.BlockPart (s : State) : State → Prop
  | holdSent (i : Fin 8) (k : FrameKind) : s.BlockPart (s.holdSent i k)
  | holdDropped (i : Fin 8) (k : FrameKind) : s.BlockPart (s.holdDropped i k)
  | dueCheck : s.BlockPart s.dueCheck
  | endIsolation : s.BlockPart s.endIsolation
  | frame (k : FrameKind) (origin : Nat) (body : List Byte) (valid : validNode origin = true) (other : origin ≠ s.ownId) :
      s.BlockPart (s.dispatchFrame k origin body)
  | ageView : s.BlockPart s.ageView
  | ownSequence : s.BlockPart s.writeOwnSequence
  | restateAll (operates : s.sc.station = .operating) : s.BlockPart s.restateAll
  | endContest (i : Fin 8) : s.BlockPart (s.endContest i)
  | expireHold (i : Fin 8) : s.BlockPart (s.expireHold i)
  | peerGone (h : Hold) (stored : h ∈ s.hu.holds) (peer : h.own = false) : s.BlockPart (s.removeHold h.code)

/-- `t` is what one part of an event makes of `s`. -/
inductive State.Part (s : State) : State → Prop
  | elapse (dt : Nat) : s.Part (s.elapse dt)
  | line (sending : Option Transmission) (activity echo : Bool) (idle : Nat) (assembler : Assembler) :
      s.Part { s with lac.sending := sending, lac.activity := activity, lac.echo := echo, lac.idle := idle
                      lac.assembler := assembler }
  | watch (watch : Watch) (off : watch = .off ↔ s.lac.watch = .off) : s.Part { s with lac.watch := watch }
  | isolate (joined : s.sc.station.joined = true) : s.Part (s.setIsolated true)
  | start (p : Fin 10) (permits : s.mayStart p = true) : s.Part (s.startAttempt p)
  | close (a : Attempt) (bits : Nat) (attempt : s.lac.attempt = some a) : s.Part (s.closeAttempt bits)
  | followOn (p : Fin 10) (e : Entry) (free : s.lac.attempt = none) (entry : s.entry p = some e) :
      s.Part (s.takeFollowOn p e)
  | backOff (p : Fin 10) (e : Entry) (free : s.lac.attempt = none) (entry : s.entry p = some e) (few : e.attempts < 7) :
      s.Part (s.backOff p e)
  | dropEntry (p : Fin 10) (free : s.lac.attempt = none) : s.Part (s.setEntry p none)
  | block {t : State} (joined : s.sc.station.joined = true) (work : s.BlockPart t) : s.Part t
  | sequence (joined : s.sc.station.joined = true) :
      s.Part { s with ads.sequence := s.ads.sequence + 1, ads.debt := max (-8) (s.ads.debt - 1) }
  | fresh (joined : s.sc.station.joined = true) : s.Part { s with ads.freshCount := s.ads.freshCount - 1 }
  | flags (joined : s.sc.station.joined = true) (mark : ContentMark) (wait present : Bool) :
      s.Part { s with ads.mark := mark, ads.postDropWait := wait, ads.entryPresent := present }
  | announced (joined : s.sc.station.joined = true) : s.Part s.countAnnounced
  | left (leaving : s.sc.station = .leaving) (free : s.lac.attempt = none) (status : Status) :
      s.Part (s.finishLeave status)
  | duplicate : s.Part s.duplicateReport
  | restart (running : s.sc.riTimer.isSome = true) : s.Part { s with sc.riTimer := some 0 }
  | reload (joined : s.sc.station.joined = true) : s.Part { s with lac.budget := s.fullBudget }
  | tickDebt (joined : s.sc.station.joined = true) : s.Part s.tickDebt
  | listen (joined : s.sc.station.joined = true) : s.Part s.countListen
  | search {t : State} (step : s.Searched t) : s.Part t

namespace State

variable {s t : State}

/-- The block's work is the work of `Work`. -/
theorem BlockPart.work (h : s.BlockPart t) : Work outsideBlocks s t := by
  cases h with
  | holdSent i k => exact (Work.holdSent s i k).blocks_of_holds
  | holdDropped i k => exact (Work.holdDropped s i k).blocks_of_holds
  | dueCheck => exact (Work.dueCheck s).blocks_of_advert
  | endIsolation => exact (Work.endIsolation s).blocks_of_advert
  | frame k origin body => exact .dispatchFrame k origin body s
  | ageView => exact .ageView s
  | ownSequence => exact .writeOwnSequence s
  | restateAll => exact (Work.restateAll s).blocks_of_holds
  | endContest i => exact (Work.endContest s i).blocks_of_holds
  | expireHold i => exact (Work.expireHold s i).blocks_of_holds
  | peerGone h => exact (Work.removeHold s _).blocks_of_holds

/-- An entry that starts is one that may start (R8). -/
theorem mayStart_of_firstStartable {p : Fin 10} (h : s.firstStartable = some p) : s.mayStart p = true := by
  have kept (l : List (Fin 10)) (best : Option (Fin 10)) (ok : ∀ q, best = some q → s.mayStart q = true) :
      ∀ p, l.foldl (fun best p =>
        if s.mayStart p then
          match best with
          | none => some p
          | some q =>
            match s.entry p, s.entry q with
            | some e, some f => if e.before f then some p else some q
            | _, _ => some q
        else best) best = some p → s.mayStart p = true := by
    induction l generalizing best with
    | nil => exact ok
    | cons q l ih =>
      refine ih _ fun r found => ?_
      dsimp only at found
      split at found
      · rename_i may
        split at found
        · cases found
          exact may
        · split at found
          · split at found <;> cases found
            · exact may
            · exact ok _ rfl
          · cases found
            exact ok _ rfl
      · exact ok r found
  exact kept allPlaces none nofun p h

section
variable {P : State → Prop} (part : ∀ {s t}, s.Part t → P s → P t)
include part

theorem part_blocks {u : State} (joined : s.sc.station.joined = true) (work : s.BlockPart u) (h : P s) :
    P u ∧ u.sc = s.sc := ⟨part (.block joined work) h, work.work.sc⟩

theorem riseActivity_keeps (dt : Nat) (h : P s) : P (s.riseActivity dt) := by
  have rises {u : State} (h : P u) : P { u.missLimit with
      lac.activity := true, lac.echo := u.transmitEnable, lac.idle := 0, lac.watch := u.lac.watch.restarted } := by
    rw [u.missLimit_eq]
    have watch : u.lac.watch.restarted = .off ↔ u.lac.watch = .off := by cases u.lac.watch <;> simp [Watch.restarted]
    exact part (.line (s := { u with lac.watch := u.lac.watch.restarted }) u.missLimit.lac.sending true u.transmitEnable 0
      u.lac.assembler) (part (.watch _ watch) h)
  exact rises (part (.elapse dt) h)

theorem fallSilent_keeps (h : P s) : P s.fallSilent := by
  have falls (sending : Option Transmission) := part (.line sending false false s.lac.idle .waiting) h
  unfold State.fallSilent
  dsimp only
  split
  · exact falls s.lac.sending
  · split
    · exact falls _
    · exact falls s.lac.sending

theorem assembler_keeps (assembler : Assembler) (h : P s) : P { s with lac.assembler := assembler } :=
  part (.line s.lac.sending s.lac.activity s.lac.echo s.lac.idle assembler) h

theorem receiveGood_keeps (k : FrameKind) {origin : Nat} (body : List Byte) (valid : validNode origin = true) (h : P s) :
    P (s.receiveGood k origin body) := by
  rw [receiveGood_eq]
  split
  · exact h
  · rename_i unjoined
    have joined : s.sc.station.joined = true := by simpa using unjoined
    split
    · exact part .duplicate h
    · rename_i other
      obtain ⟨h', sc⟩ := part_blocks part joined .endIsolation h
      refine part (.block (by rw [sc]; exact joined) (.frame k origin body valid ?_)) h'
      rwa [State.ownId, sc]

theorem receiveFrame_keeps (k : FrameKind) (origin : BitVec 16) (body : List Byte) (h : P s) :
    P (s.receiveFrame k origin body) := by
  unfold State.receiveFrame
  split
  · dsimp only
    split
    · rename_i good
      exact receiveGood_keeps part k body good.1 (assembler_keeps part _ h)
    · exact assembler_keeps part _ h
  · exact h

theorem startFirst_keeps (h : P s) : P s.startFirst := by
  unfold State.startFirst
  split
  · rename_i p first
    exact part (.start p (mayStart_of_firstStartable first)) h
  · exact h

/-- The end of an ADVERT's entry in ANNOUNCING is counted, and the due check runs (R64, R65). -/
theorem announced_keeps (joined : s.sc.station.joined = true) (h : P s) : P s.countAnnounced.dueCheck := by
  have counted : s.countAnnounced.sc.station.joined = true := by
    unfold State.countAnnounced
    split
    · dsimp only
      split
      · unfold State.enterOperating State.completeJoin
        split <;> rfl
      · exact joined
    · exact joined
  exact part (.block counted .dueCheck) (part (.announced joined) h)

theorem advanceSequence_keeps (joined : s.sc.station.joined = true) (h : P s) :
    P s.advanceSequence ∧ s.advanceSequence.sc = s.sc :=
  part_blocks part (s := { s with ads.sequence := s.ads.sequence + 1, ads.debt := max (-8) (s.ads.debt - 1) }) joined
    .ownSequence (part (.sequence joined) h)

theorem freshSent_keeps (joined : s.sc.station.joined = true) (h : P s) : P s.freshSent ∧ s.freshSent.sc = s.sc := by
  unfold State.freshSent
  dsimp only
  have counted := part (.fresh joined) h
  split
  · rename_i operates
    exact part_blocks part (s := { s with ads.freshCount := s.ads.freshCount - 1 }) joined (.restateAll operates) counted
  · exact ⟨counted, rfl⟩

theorem advertSent_keeps (fresh follows : Bool) (joined : s.sc.station.joined = true) (h : P s) :
    P (s.advertSent fresh follows) := by
  obtain ⟨advanced, sc⟩ := advanceSequence_keeps part joined h
  have noted {u : State} (h : P u) (joined : u.sc.station.joined = true) :
      P { u with ads.mark := u.ads.mark.delivered, ads.entryPresent := follows }.countAnnounced.dueCheck :=
    announced_keeps part joined (part (.flags joined _ u.ads.postDropWait follows) h)
  unfold State.advertSent
  dsimp only
  split
  · obtain ⟨sent, sc'⟩ := freshSent_keeps part (by rw [sc]; exact joined) advanced
    exact noted sent (by rw [sc', sc]; exact joined)
  · exact noted advanced (by rw [sc]; exact joined)

theorem advertDropped_keeps (joined : s.sc.station.joined = true) (h : P s) : P s.advertDropped :=
  announced_keeps part (s := { s with ads.postDropWait := true, ads.entryPresent := false, ads.mark := s.ads.mark.returned })
    joined (part (.flags joined _ true false) h)

theorem reportSent_keeps (a : Attempt) (follows : Bool) (joined : s.sc.station.joined = true)
    (free : s.lac.attempt = none) (leaving : a.kind = .withdraw → s.sc.station = .leaving) (h : P s) :
    P (s.reportSent a follows) := by
  unfold State.reportSent
  split
  · exact part (.block joined (.holdSent _ _)) h
  · split
    · exact advertSent_keeps part _ _ joined h
    · rename_i withdraw
      obtain ⟨advanced, sc⟩ := advanceSequence_keeps part joined h
      exact part (.left (s := s.advanceSequence) (by rw [sc]; exact leaving withdraw)
        ((Work.writeOwnSequence _).attempt.trans free) .ok) advanced
    · exact h

theorem reportDropped_keeps (p : Fin 10) (k : FrameKind) (joined : s.sc.station.joined = true)
    (free : s.lac.attempt = none) (leaving : k = .withdraw → s.sc.station = .leaving) (h : P s) :
    P (s.reportDropped p k) := by
  unfold State.reportDropped
  split
  · exact part (.block joined (.holdDropped _ _)) h
  · split
    · exact advertDropped_keeps part joined h
    · exact part (.left (leaving rfl) free _) h
    · exact h

/-- What the blocks do at an RI tick (R173). -/
theorem tickBlocks_keeps (joined : s.sc.station.joined = true) (h : P s) : P s.tickBlocks := by
  have reloaded := part (.reload joined) h
  obtain ⟨aged, sc⟩ := part_blocks part (s := { s with lac.budget := s.fullBudget }) joined .ageView reloaded
  have debt (u : State) : u.tickDebt.sc = u.sc := by
    unfold State.tickDebt
    split
    · rfl
    · split <;> rfl
  have counted (u : State) (joined : u.sc.station.joined = true) : u.countListen.sc.station.joined = true := by
    unfold State.countListen
    split
    · dsimp only
      split
      · rfl
      · exact joined
    · exact joined
  have joined' : ({ s with lac.budget := s.fullBudget } : State).ageView.sc.station.joined = true := by
    rw [sc]
    exact joined
  have owed := part (.tickDebt joined') aged
  have joined'' := joined'
  rw [← debt] at joined''
  exact part (.block (counted _ joined'') .dueCheck) (part (.listen joined'') owed)

end

/-- A station with an attempt on the line has joined (R8, R71, R113). -/
theorem Agree.joined_of_attempt (h : s.Agree) {a : Attempt} (attempt : s.lac.attempt = some a) :
    s.sc.station.joined = true := by
  by_contra unjoined
  obtain ⟨-, -, -, -, -, -, -, -, none, -⟩ := h.notJoined (Bool.eq_false_of_not_eq_true unjoined)
  rw [none] at attempt
  cases attempt

/-- The withdraw ADVERT is on the line in LEAVING alone (R180). -/
theorem Agree.leaving_of_withdraw (h : s.Agree) {a : Attempt} (attempt : s.lac.attempt = some a)
    (withdraw : a.kind = .withdraw) : s.sc.station = .leaving := by
  by_contra other
  have := (h.withdraw other).2
  rw [attempt, Option.any_some, withdraw] at this
  exact absurd this (by decide)

/-- A LIVE slot is a joined station's (R71, R113). -/
theorem Agree.joined_of_slot (h : s.Agree) {i : Fin 8} (slot : s.slot i ≠ .free) : s.sc.station.joined = true := by
  by_contra unjoined
  obtain ⟨-, -, -, -, -, free, -⟩ := h.notJoined (Bool.eq_false_of_not_eq_true unjoined)
  exact slot (free i)

/-- A hold record is a joined station's (R71, R113). -/
theorem Agree.joined_of_hold (h : s.Agree) {x : Hold} (stored : x ∈ s.hu.holds) : s.sc.station.joined = true := by
  by_contra unjoined
  obtain ⟨-, -, -, none, -⟩ := h.notJoined (Bool.eq_false_of_not_eq_true unjoined)
  rw [none] at stored
  cases stored

section
variable {P : State → Prop} (agree : ∀ {s}, P s → s.Agree) (part : ∀ {s t}, s.Part t → P s → P t)
include agree part

theorem succeedAttempt_keeps {a : Attempt} (attempt : s.lac.attempt = some a) (h : P s) : P (s.succeedAttempt a) := by
  have closed : P (s.closeAttempt a.bits) := part (.close a _ attempt) h
  unfold State.succeedAttempt
  dsimp only
  split
  · exact closed
  · rename_i e entry
    exact reportSent_keeps part a _ ((agree h).joined_of_attempt attempt) rfl ((agree h).leaving_of_withdraw attempt)
      (part (.followOn a.place e rfl entry) closed)

/-- An attempt that was cut short is closed, and its place is settled (R6, R13, R14). -/
theorem settle_keeps {a : Attempt} (n : Nat) (attempt : s.lac.attempt = some a) (h : P s) :
    P (match s.entry a.place with
      | none => s.abortAttempt a n
      | some e =>
        if e.followOn.isSome || e.withdrawn then (s.abortAttempt a n).takeFollowOn a.place e
        else if e.attempts < 7 then (s.abortAttempt a n).backOff a.place e
        else ((s.abortAttempt a n).setEntry a.place none).reportDropped a.place a.kind) := by
  have closed : P (s.abortAttempt a n) :=
    part (.close a _ attempt) (part (.line (some ⟨a.startedAt, a.frame, some n⟩) s.lac.activity s.lac.echo s.lac.idle
      s.lac.assembler) h)
  split
  · exact closed
  · rename_i e entry
    split
    · exact part (.followOn a.place e rfl entry) closed
    · split
      · rename_i few
        exact part (.backOff a.place e rfl entry few) closed
      · exact reportDropped_keeps part a.place a.kind ((agree h).joined_of_attempt attempt) rfl
          ((agree h).leaving_of_withdraw attempt) (part (.dropEntry a.place rfl) closed)

theorem failAttempt_keeps {a : Attempt} (n : Nat) (attempt : s.lac.attempt = some a) (h : P s) :
    P (s.failAttempt a n) :=
  settle_keeps agree part (s := s.elapse (a.startedAt + n + abortBits - s.now)) n attempt (part (.elapse _) h)

theorem judgeEcho_keeps (echo : List LineBit) (h : P s) : P (s.judgeEcho echo) := by
  unfold State.judgeEcho
  split
  · exact h
  · rename_i a attempt
    split
    · exact failAttempt_keeps agree part _ attempt h
    · split
      · exact succeedAttempt_keeps agree part (s := s.elapse _) attempt (part (.elapse _) h)
      · exact h

theorem loseEcho_keeps (h : P s) : P s.loseEcho := by
  unfold State.loseEcho
  split
  · exact h
  · rename_i a attempt
    split
    · exact failAttempt_keeps agree part _ attempt h
    · split
      · exact h
      · exact failAttempt_keeps agree part _ attempt h

theorem riTicks_keeps (h : P s) : P s.riTicks := by
  cases timer : s.sc.riTimer with
  | none =>
    rw [riTicks_stopped timer]
    exact h
  | some e =>
    rw [riTicks_running timer]
    have restarted {u : State} (h : P u) (running : u.sc.riTimer.isSome = true) :
        P { u with sc.riTimer := some 0 }.tickBlocks :=
      tickBlocks_keeps part (s := { u with sc.riTimer := some 0 }) ((agree h).ticks ▸ running)
        (part (.restart running) h)
    exact restarted (part (.elapse _) h) (by rw [elapse_sc_riTimer, timer]; rfl)

theorem watchExpires_keeps (h : P s) : P s.watchExpires := by
  cases watch : s.lac.watch with
  | running e =>
    rw [watchExpires_running watch]
    have expired {u : State} (h : P u) (running : u.lac.watch ≠ .off) : P ({ u with lac.watch := .expired }.setIsolated true) :=
      part (.isolate (s := { u with lac.watch := .expired }) ((agree h).watch.1 running)) (part (.watch .expired ⟨nofun, fun off => absurd off running⟩) h)
    exact expired (part (.elapse _) h) (by rw [elapse_lac_watch, watch]; nofun)
  | off | expired =>
    rw [watchExpires_stopped (by rw [watch]; nofun)]
    exact h

theorem contestExpires_keeps (i : Fin 8) (h : P s) : P (s.contestExpires i) := by
  unfold State.contestExpires
  split
  · rename_i e c n t slot
    exact part (.block (s := s.elapse _) ((agree h).joined_of_slot (by rw [slot]; nofun)) (.endContest i))
      (part (.elapse _) h)
  · exact h

theorem lifetimeExpires_keeps (i : Fin 8) (h : P s) : P (s.lifetimeExpires i) := by
  have expires (dt : Nat) (slot : s.slot i ≠ .free) : P ((s.elapse dt).expireHold i) :=
    part (.block (s := s.elapse dt) ((agree h).joined_of_slot slot) (.expireHold i)) (part (.elapse dt) h)
  unfold State.lifetimeExpires
  split
  · rename_i n t slot
    exact expires _ (by rw [slot]; nofun)
  · rename_i n t slot
    exact expires _ (by rw [slot]; nofun)
  · exact h

theorem peerExpires_keeps (origin : BitVec 16) (n : Byte) (h : P s) : P (s.peerExpires origin n) := by
  unfold State.peerExpires
  split
  · exact h
  · rename_i x found
    split
    · exact h
    · rename_i peer
      have stored := List.mem_of_find?_eq_some found
      have code : x.code = holdCode origin.toNat n := by simpa using List.find?_some found
      have unowned : x.own = false := Bool.eq_false_of_not_eq_true peer
      obtain ⟨f, holds, kept⟩ := s.elapse_holds (x.lifetime.getD 0)
      have stored' : f x ∈ (s.elapse (x.lifetime.getD 0)).hu.holds := holds ▸ List.mem_map_of_mem stored
      have unowned' : (f x).own = false := by rw [kept x]; exact unowned
      have code' : (f x).code = x.code := by rw [kept x]; rfl
      rw [← code, ← code']
      exact part (.block (s := s.elapse _) ((agree h).joined_of_hold stored) (.peerGone _ stored' unowned'))
        (part (.elapse _) h)

/-- What each part of an event keeps, the events of the line and of the timers keep. -/
theorem lineEvent_keeps {c : Instr} {work : State → State} (worked : eventWork c = some work)
    (other : searchEvent c = false) (h : P s) : P (work s) := by
  cases c <;> cases worked <;> cases other
  case receiveActivityRise => exact riseActivity_keeps part _ h
  case receiveActivityFall => exact fallSilent_keeps part (part (.elapse _) h)
  case frameDropped =>
    exact receiveLine_keeps (fun k origin body valid h => receiveGood_keeps part k body valid h)
      (fun a h => assembler_keeps part a h) _ h
  case duplicateIdentity => exact part .duplicate (assembler_keeps part _ h)
  case attemptStart => exact startFirst_keeps part (part (.elapse _) h)
  case attemptSucceeded =>
    unfold State.matchEcho
    split
    · exact h
    · exact judgeEcho_keeps agree part _ h
  case collision => exact judgeEcho_keeps agree part _ h
  case echoLost => exact loseEcho_keeps agree part h
  case riTick => exact riTicks_keeps agree part h
  case silenceWatchExpiry => exact watchExpires_keeps agree part h
  case contestExpiry => exact contestExpires_keeps agree part _ h
  case holdLifetimeExpiry => exact lifetimeExpires_keeps agree part _ h
  case peerLifetimeExpiry => exact peerExpires_keeps agree part _ _ h
  all_goals exact receiveFrame_keeps part _ _ _ h

/-- What each part of an event keeps, and agrees with the station state, every event keeps. -/
theorem event_keeps {c : Instr} {work : State → State} (worked : eventWork c = some work) (h : P s) : P (work s) := by
  cases search : searchEvent c with
  | true => exact part (.search (searched_of_eventWork worked search s)) h
  | false => exact lineEvent_keeps agree part worked search h

end

end State

end Sys2Proof.Machine

namespace Sys2Proof.Machine

namespace State

variable {s t : State}

/-! The end of a membership (R181) and the mute (R179), each in one record. -/

/-- The state after a membership, before the LEAVE completes (R40, R71, R113, R181). -/
def parted (s : State) : State :=
  { s with
    tv := { nodes := [], links := [], viewIncomplete := false, counter := s.tv.counter + 1#32 }
    hu := { s.hu with holds := [], slots := Vector.replicate 8 .free, overflow := false }
    lac := { s.lac with due := Vector.replicate 10 none, budget := 0, watch := .off, isolated := false }
    ads := Ads.atReset
    sc := { s.sc with station := .configured, muted := false, riTimer := none, listen := 0 }
    clp.marks := s.marksLeft (s.clp.marks.muted || s.sc.muted) }

theorem finishLeave_eq (s : State) (status : Status) : s.finishLeave status = s.parted.completeLeaving status := by
  unfold State.finishLeave
  dsimp only
  refine congrArg (State.completeLeaving status) ?_
  simp only [State.clearView, State.clearHolds, State.clearDue, State.count, State.setViewIncomplete_eq,
    State.setOverflow_eq, State.setIsolated_eq, State.setMuted_eq, Bool.bne_false, State.parted, State.marksLeft]

/-- The completion of a waiting LEAVE writes the queue and the wait alone. -/
theorem completeLeaving_eq (s : State) (status : Status) : s.completeLeaving status = { s with
    clp := { s.clp with
      completions := s.clp.completions ++ (s.sc.leaveWaiting.map (fun t => Completion.plain .leave t status)).toList
      reservations := s.clp.reservations - s.sc.leaveWaiting.toList.length }
    sc.leaveWaiting := none } := by
  obtain ⟨_, _, _, _, _, _, _, _, _, _, ⟨_, _, _, _, _⟩, ⟨_, _, _, _, _, _, _, leave⟩, _⟩ := s
  cases leave <;> simp [State.completeLeaving, State.post]

/-- The completion of a waiting JOIN writes the queue and the wait alone. -/
theorem completeJoin_eq (s : State) (status : Status) : s.completeJoin status = { s with
    clp := { s.clp with
      completions := s.clp.completions ++ (s.sc.joinWaiting.map (fun t => Completion.plain .join t status)).toList
      reservations := s.clp.reservations - s.sc.joinWaiting.toList.length }
    sc.joinWaiting := none } := by
  obtain ⟨_, _, _, _, _, _, _, _, _, _, ⟨_, _, _, _, _⟩, ⟨_, _, _, _, _, _, join, _⟩, _⟩ := s
  cases join <;> simp [State.completeJoin, State.post]

/-- The attempt on the line, if any, is cut (R15). -/
theorem cutAttempt_eq (s : State) : s.cutAttempt = { s with
    lac := { s.lac with
      attempt := none
      sending := match s.lac.attempt with
        | none => s.lac.sending
        | some a => some ⟨a.startedAt, a.frame, some ((s.echoLoss a).getD (s.now - a.startedAt))⟩
      budget := match s.lac.attempt with
        | none => s.lac.budget
        | some a => s.lac.budget - bytesSent ((s.echoLoss a).getD (s.now - a.startedAt) + abortBits) } } := by
  unfold State.cutAttempt
  split
  · rename_i none
    simp only [none]
    obtain ⟨_, _, _, ⟨_, _, _, _, _, _, _, _, _, _, _⟩, _⟩ := s
    simp_all
  · rename_i a attempt
    simp only [attempt]
    rfl

/-- MUTED is entered, the attempt cut and the due list empty, before the holds are settled (R15, R179). -/
def silenced (s : State) : State := ({ s with sc.station := .muted }.setMuted true).cutAttempt.clearDue

theorem enterMuted_eq (s : State) : s.enterMuted = s.silenced.muteHolds.advertDiscarded := by
  unfold State.enterMuted State.silenced
  dsimp only

theorem silenced_sc (s : State) : s.silenced.sc = { s.sc with station := .muted, muted := true } := by
  unfold State.silenced
  rw [cutAttempt_eq, State.setMuted_eq]
  rfl

theorem silenced_entry (s : State) (p : Fin 10) : s.silenced.entry p = none := Vector.getElem_replicate ..

theorem silenced_attempt (s : State) : s.silenced.lac.attempt = none := by
  unfold State.silenced
  rw [cutAttempt_eq]
  rfl

theorem silenced_watch (s : State) : s.silenced.lac.watch = s.lac.watch := by
  unfold State.silenced
  rw [cutAttempt_eq, State.setMuted_eq]
  rfl

theorem silenced_psu (s : State) : s.silenced.psu = s.psu := by
  unfold State.silenced
  rw [cutAttempt_eq, State.setMuted_eq]
  rfl

theorem silenced_hu (s : State) : s.silenced.hu = s.hu := by
  unfold State.silenced
  rw [cutAttempt_eq, State.setMuted_eq]
  rfl

/-! The slots after work that settles one slot after another (R111, R112). -/

/-- Work on one slot after another leaves each slot as its own turn leaves it. -/
theorem foldl_slot {f : State → Fin 8 → State} {g : State → Fin 8 → Slot} (self : ∀ s i, (f s i).slot i = g s i)
    (other : ∀ s i j, j ≠ i → (f s i).slot j = s.slot j ∧ g (f s i) j = g s j) {l : List (Fin 8)} (nodup : l.Nodup)
    (s : State) (j : Fin 8) : (l.foldl f s).slot j = if j ∈ l then g s j else s.slot j := by
  induction l generalizing s with
  | nil => rfl
  | cons i l ih =>
    obtain ⟨absent, nodup⟩ := List.nodup_cons.1 nodup
    rw [List.foldl_cons, ih nodup]
    by_cases same : j = i
    · subst same
      rw [if_neg absent, if_pos (List.mem_cons_self ..), self]
    · obtain ⟨kept, kept'⟩ := other s i j same
      simp only [List.mem_cons, same, false_or, kept, kept']

theorem mem_allSlots (i : Fin 8) : i ∈ allSlots := by
  fin_cases i <;> decide

theorem foldl_allSlots {f : State → Fin 8 → State} {g : State → Fin 8 → Slot} (self : ∀ s i, (f s i).slot i = g s i)
    (other : ∀ s i j, j ≠ i → (f s i).slot j = s.slot j ∧ g (f s i) j = g s j) (s : State) (j : Fin 8) :
    (allSlots.foldl f s).slot j = g s j := by
  rw [foldl_slot self other (by decide), if_pos (mem_allSlots j)]

/-- The end of a hold sets its slot (R90). -/
theorem endHold_slot (s : State) (i : Fin 8) (outcome : HoldOutcome) (x : Slot) (j : Fin 8)
    (numbered : (s.slot i).number ≠ none) :
    (s.endHold i outcome x).slot j = if j = i then x else s.slot j := by
  unfold State.endHold
  split
  · rename_i none
    exact absurd none numbered
  · rename_i n _
    have kept (c : Status) (items : Items) (u : State) (j : Fin 8) : (u.completeCommit i c items).slot j = u.slot j := by
      unfold State.completeCommit
      split
      · split <;> rfl
      · rfl
    rw [slot_setSlot]
    split
    · rfl
    · rw [kept, slot_removeHold]

theorem muteSlot_slot (s : State) (i j : Fin 8) :
    (s.muteSlot i).slot j = if j = i then (s.slot i).muted else s.slot j := by
  unfold State.muteSlot
  split
  · rename_i sub n t slot
    rw [endHold_slot _ _ _ _ _ (by rw [slot]; nofun), slot]
    rfl
  · rename_i n t o b slot
    rw [slot_setSlot, slot]
    rfl
  · rename_i closing live
    split
    · rename_i same
      subst same
      cases slot : s.slot j with
      | live => exact (closing _ _ _ slot).elim
      | closing => exact (live _ _ _ _ slot).elim
      | free | ended => rfl
    · rfl

/-- MUTED entry settles every slot (R111). -/
theorem muteHolds_slot (s : State) (i : Fin 8) : s.muteHolds.slot i = (s.slot i).muted := by
  refine foldl_allSlots (f := fun s i => s.muteSlot i) (g := fun s i => (s.slot i).muted) (fun s i => ?_) (fun s i j ne => ?_)
    s i
  · rw [muteSlot_slot, if_pos rfl]
  · rw [muteSlot_slot, if_neg ne]
    exact ⟨rfl, rfl⟩

theorem slot_withdrawEntry (s : State) (p : Fin 10) (j : Fin 8) : (s.withdrawEntry p).slot j = s.slot j := by
  rw [State.withdrawEntry_eq]
  rfl

theorem slot_makeDue (s : State) (p : Fin 10) (k : FrameKind) (c : Fin 3) (j : Fin 8) :
    (s.makeDue p k c).slot j = s.slot j := by
  rw [State.makeDue_eq]
  rfl

theorem slotLeft_pending {i : Fin 8} {c : Option Tag} {n : BitVec 8} {tag : Tag} (slot : s.slot i = .live (.pending c) n tag) :
    s.slotLeft i = if s.announceOnLine i then .closing n tag .released false else .free := by
  unfold State.slotLeft
  rw [slot]

theorem slotLeft_live {i : Fin 8} {sub : Substate} {n : BitVec 8} {tag : Tag} (slot : s.slot i = .live sub n tag)
    (announced : ∀ c, sub ≠ .pending c) : s.slotLeft i = .closing n tag .released false := by
  unfold State.slotLeft
  rw [slot]
  cases sub with
  | pending c => exact absurd rfl (announced c)
  | announced | held | committing | committed => rfl

theorem slotLeft_closing {i : Fin 8} {n : BitVec 8} {tag : Tag} {o : HoldOutcome} {b : Bool}
    (slot : s.slot i = .closing n tag o b) : s.slotLeft i = .closing n tag o false := by
  unfold State.slotLeft
  rw [slot]

theorem slotLeft_ended {i : Fin 8} {n : BitVec 8} {tag : Tag} {o : HoldOutcome} (slot : s.slot i = .ended n tag o) :
    s.slotLeft i = .free := by
  unfold State.slotLeft
  rw [slot]

theorem slotLeft_free {i : Fin 8} (slot : s.slot i = .free) : s.slotLeft i = .free := by
  unfold State.slotLeft
  rw [slot]

theorem leaveSlot_slot (s : State) (i j : Fin 8) :
    (s.leaveSlot i).slot j = if j = i then s.slotLeft i else s.slot j := by
  unfold State.leaveSlot
  split
  · rename_i c n t slot
    rw [slotLeft_pending slot]
    split
    · rw [slot_makeDue, endHold_slot _ _ _ _ _ (by rw [slot]; nofun)]
    · rw [endHold_slot _ _ _ _ _ (by rw [slot_withdrawEntry, slot]; nofun), slot_withdrawEntry]
  · rename_i sub n t announced slot
    rw [slot_makeDue, endHold_slot _ _ _ _ _ (by rw [slot]; nofun), slotLeft_live slot announced]
  · rename_i slot
    rw [slot_setSlot, slotLeft_closing slot]
  · rename_i slot
    rw [slot_setSlot, slotLeft_ended slot]
  · rename_i slot
    rw [slotLeft_free slot]
    split
    · rename_i same
      rw [same, slot]
    · rfl

theorem slotLeft_of_eq (attempt : t.lac.attempt = s.lac.attempt) {i : Fin 8} (slot : t.slot i = s.slot i) :
    t.slotLeft i = s.slotLeft i := by
  unfold State.slotLeft State.announceOnLine
  rw [slot, attempt]

/-- LEAVE settles every slot (R112). -/
theorem leaveHolds_slot (s : State) (i : Fin 8) : s.leaveHolds.slot i = s.slotLeft i := by
  refine foldl_allSlots (f := fun s i => s.leaveSlot i) (g := State.slotLeft) (fun s i => ?_) (fun s i j ne => ?_) s i
  · rw [leaveSlot_slot, if_pos rfl]
  · have kept : (s.leaveSlot i).slot j = s.slot j := by rw [leaveSlot_slot, if_neg ne]
    exact ⟨kept, slotLeft_of_eq (Work.leaveSlot s i).blocks_of_holds.attempt kept⟩

end State

end Sys2Proof.Machine

namespace Sys2Proof.Machine

namespace State

variable {s t : State}

/-! The agreement of the blocks with the station state is kept (R71, R113, R170, R173, R180, R181). -/

/-- The SC's registers as far as the agreement reads them. -/
def standing (s : State) : Station × Option Identity × Option Timing × Bool × Bool × Bool × Bool :=
  (s.sc.station, s.sc.identity, s.sc.timing, s.sc.muted, s.sc.riTimer.isSome, s.sc.joinWaiting.isSome,
    s.sc.leaveWaiting.isSome)

/-- No withdraw ADVERT is due, nor on the line. -/
def unwithdrawn (s : State) : Prop :=
  (∀ p : Fin 10, (s.entry p).any Entry.withdraws = false) ∧ s.lac.attempt.any (fun a => a.kind == .withdraw) = false

/-- Nothing is due, nor on the line. -/
def silentLine (s : State) : Prop := s.lac.attempt = none ∧ ∀ p : Fin 10, s.entry p = none

/-- Work that keeps the station state keeps the agreement where it keeps, in the station states that ask for it, the search
empty, the slots FREE or not LIVE, the line silent, and the withdraw ADVERT away. -/
theorem Agree.transfer (h : s.Agree) (standing : t.standing = s.standing)
    (watch : t.lac.watch = .off ↔ s.lac.watch = .off)
    (psu : s.sc.station ≠ .operating → s.sc.station ≠ .muted → t.psu = s.psu)
    (left : s.sc.station.joined = false → s.left → t.left)
    (live : s.sc.station ≠ .operating → ∀ i : Fin 8, (t.slot i).isLive = true → (s.slot i).isLive = true)
    (free : s.sc.station ≠ .operating → ∀ i : Fin 8, s.slot i = .free → t.slot i = .free)
    (silent : s.sc.station = .muted → s.silentLine → t.silentLine)
    (withdraw : s.sc.station ≠ .leaving → s.unwithdrawn → t.unwithdrawn) : t.Agree := by
  simp only [State.standing, Prod.mk.injEq] at standing
  obtain ⟨station, identity, timing, muted, ticks, joining, leaving⟩ := standing
  constructor
  case identity => rw [identity, station]; exact h.identity
  case timing => rw [timing, station]; exact h.timing
  case ticks => rw [ticks, station]; exact h.ticks
  case watch => rw [Ne, watch, station]; exact h.watch
  case muted => rw [muted, station]; exact h.muted
  case leaving => rw [leaving, station]; exact h.leaving
  case joining => rw [joining, station]; exact h.joining
  all_goals rw [station]
  case notJoined => exact fun unjoined => left unjoined (h.notJoined unjoined)
  case noSearch => exact fun noOp noMute => by rw [psu noOp noMute]; exact h.noSearch noOp noMute
  case noHold =>
    intro noOp i
    refine Bool.eq_false_of_not_eq_true fun is => ?_
    exact absurd (live noOp i is) (by rw [h.noHold noOp i]; nofun)
  case allFree =>
    intro early i
    exact free (by rcases early with early | early <;> rw [early] <;> nofun) i (h.allFree early i)
  case silent => exact fun isMuted => silent isMuted (h.silent isMuted)
  case withdraw => exact fun noLeave => withdraw noLeave (h.withdraw noLeave)

theorem entry_of_due (due : t.lac.due = s.lac.due) (p : Fin 10) : t.entry p = s.entry p := by
  rw [State.entry, due]
  rfl

theorem slot_of_slots (slots : t.hu.slots = s.hu.slots) (i : Fin 8) : t.slot i = s.slot i := by
  rw [State.slot, slots]
  rfl

theorem silentLine_of_eq (due : t.lac.due = s.lac.due) (attempt : t.lac.attempt = s.lac.attempt) (h : s.silentLine) :
    t.silentLine :=
  ⟨attempt.trans h.1, fun p => (entry_of_due due p).trans (h.2 p)⟩

theorem unwithdrawn_of_eq (due : t.lac.due = s.lac.due) (attempt : t.lac.attempt = s.lac.attempt) (h : s.unwithdrawn) :
    t.unwithdrawn :=
  ⟨fun p => by rw [entry_of_due due]; exact h.1 p, by rw [attempt]; exact h.2⟩

/-- Work that leaves the due list, the attempt, the slots, the search and the station state. -/
theorem Agree.of_eq (h : s.Agree) (standing : t.standing = s.standing)
    (watch : t.lac.watch = .off ↔ s.lac.watch = .off) (psu : t.psu = s.psu)
    (left : s.sc.station.joined = false → s.left → t.left) (slots : t.hu.slots = s.hu.slots)
    (due : t.lac.due = s.lac.due) (attempt : t.lac.attempt = s.lac.attempt) : t.Agree :=
  h.transfer standing watch (fun _ _ => psu) left (fun _ i => by rw [slot_of_slots slots]; exact id)
    (fun _ i => by rw [slot_of_slots slots]; exact id) (fun _ => silentLine_of_eq due attempt)
    (fun _ => unwithdrawn_of_eq due attempt)

theorem vacuous_left (joined : s.sc.station.joined = true) : s.sc.station.joined = false → s.left → t.left :=
  fun unjoined => by rw [joined] at unjoined; cases unjoined

/-- The blocks' work in a membership keeps the agreement. -/
theorem Agree.work (h : s.Agree) (work : Work outsideBlocks s t) (joined : s.sc.station.joined = true) : t.Agree := by
  refine h.transfer (by rw [State.standing, work.sc]; rfl) (by rw [work.watch]) (fun _ _ => work.psu)
    (vacuous_left joined) (fun _ => work.orderly.live) (fun _ => work.orderly.free) ?_ ?_
  · exact fun muted silent => ⟨work.attempt.trans silent.1, work.orderly.quiet muted silent.2⟩
  · exact fun _ none => ⟨work.orderly.withdraws none.1, by rw [work.attempt]; exact none.2⟩

theorem left_elapse (dt : Nat) (h : s.left) : (s.elapse dt).left := by
  obtain ⟨nodes, links, incomplete, holds, overflow, slots, ads, entries, attempt, budget, isolated, listen⟩ := h
  refine ⟨nodes, links, incomplete, ?_, overflow, fun i => ?_, ads, entries, attempt, budget, isolated, listen⟩
  · show List.map _ s.hu.holds = []
    rw [holds]
    rfl
  · rw [elapse_slot, slots i]
    rfl

theorem Agree.elapse (h : s.Agree) (dt : Nat) : (s.elapse dt).Agree := by
  have watch : s.lac.watch.after dt = .off ↔ s.lac.watch = .off := by cases s.lac.watch <;> simp [Watch.after]
  refine h.transfer ?_ watch (fun _ _ => rfl) (fun _ => left_elapse dt) (fun _ i => ?_) (fun _ i => ?_) (fun _ => id)
    (fun _ => id)
  · simp [State.standing]
  · rw [elapse_slot, Slot.after_isLive]
    exact id
  · intro free
    rw [elapse_slot, free]
    rfl

/-- An entry may start in a membership, and not in MUTED (R8). -/
theorem mayStart_station {p : Fin 10} (h : s.mayStart p = true) :
    s.sc.station.joined = true ∧ s.sc.station ≠ .muted := by
  unfold State.mayStart at h
  split at h
  · cases h
  · have permits : s.statePermits p = true := by
      simp only [Bool.and_eq_true] at h
      exact h.1.1.1
    unfold State.statePermits at permits
    cases station : s.sc.station with
    | listening | announcing | operating | leaving => exact ⟨rfl, nofun⟩
    | unconfigured | identified | configured | muted =>
      rw [station] at permits
      cases permits

/-- An attempt that starts is of the entry in its place (R10). -/
theorem startAttempt_cases (s : State) (p : Fin 10) : s.startAttempt p = s ∨ ∃ e body mark, s.entry p = some e ∧
    s.startAttempt p = { s with
      lac.attempt := some ⟨p, e.kind, frameBytes e.kind s.ownId body, s.now⟩
      lac.sending := some ⟨s.now, frameBytes e.kind s.ownId body, none⟩
      ads.mark := mark } := by
  unfold State.startAttempt
  split
  · exact .inl rfl
  · rename_i e entry
    split
    · exact .inl rfl
    · exact .inr ⟨e, _, _, entry, rfl⟩

theorem Agree.startAttempt (h : s.Agree) {p : Fin 10} (may : s.mayStart p = true) : (s.startAttempt p).Agree := by
  obtain ⟨joined, unmuted⟩ := mayStart_station may
  rcases s.startAttempt_cases p with same | ⟨e, body, mark, entry, started⟩
  · rw [same]
    exact h
  · rw [started]
    refine h.transfer rfl Iff.rfl (fun _ _ => rfl) (vacuous_left joined) (fun _ _ => id) (fun _ _ => id)
      (fun muted => absurd muted unmuted) (fun _ none => ⟨none.1, ?_⟩)
    have unkind := none.1 p
    rw [entry, Option.any_some, Entry.withdraws, Bool.or_eq_false_iff] at unkind
    exact unkind.1

theorem Agree.closeAttempt (h : s.Agree) {a : Attempt} (attempt : s.lac.attempt = some a) (bits : Nat) :
    (s.closeAttempt bits).Agree :=
  h.transfer rfl Iff.rfl (fun _ _ => rfl) (vacuous_left (h.joined_of_attempt attempt)) (fun _ _ => id) (fun _ _ => id)
    (fun _ silent => ⟨rfl, silent.2⟩) (fun _ none => ⟨none.1, rfl⟩)

/-- An entry in a place is a joined station's, outside MUTED (R15, R71, R113). -/
theorem Agree.of_entry (h : s.Agree) {p : Fin 10} {e : Entry} (entry : s.entry p = some e) :
    s.sc.station.joined = true ∧ s.sc.station ≠ .muted := by
  constructor
  · by_contra unjoined
    obtain ⟨-, -, -, -, -, -, -, none, -⟩ := h.notJoined (Bool.eq_false_of_not_eq_true unjoined)
    rw [none] at entry
    cases entry
  · intro muted
    rw [(h.silent muted).2] at entry
    cases entry

/-- A place that holds an entry takes another, which brings no withdraw ADVERT of its own. -/
theorem Agree.setEntry (h : s.Agree) {p : Fin 10} {e : Entry} (entry : s.entry p = some e)
    {x : Option Entry} (withdraws : e.withdraws = false → x.any Entry.withdraws = false) : (s.setEntry p x).Agree := by
  obtain ⟨joined, unmuted⟩ := h.of_entry entry
  refine h.transfer rfl Iff.rfl (fun _ _ => rfl) (vacuous_left joined) (fun _ _ => id) (fun _ _ => id)
    (fun muted => absurd muted unmuted) (fun _ none => ⟨fun q => ?_, none.2⟩)
  rw [entry_setEntry]
  split
  · refine withdraws ?_
    have := none.1 p
    rwa [entry] at this
  · exact none.1 q

theorem setEntry_none_of_absent {p : Fin 10} (entry : s.entry p = none) : s.setEntry p none = s := by
  rw [← entry]
  exact setEntry_self s p

theorem Agree.countAnnounced (h : s.Agree) (joined : s.sc.station.joined = true) : s.countAnnounced.Agree := by
  have counted : Agree { s with ads.announceCount := s.ads.announceCount + 1 } :=
    h.of_eq rfl Iff.rfl rfl (vacuous_left joined) rfl rfl rfl
  unfold State.countAnnounced
  split
  · rename_i station
    dsimp only
    split
    · unfold State.enterOperating
      rw [completeJoin_eq]
      have out : s.sc.station ≠ .unconfigured ∧ s.sc.station ≠ .identified ∧ s.sc.station ≠ .leaving ∧
          s.sc.station ≠ .muted := by rw [station]; exact ⟨nofun, nofun, nofun, nofun⟩
      obtain ⟨unconfigured, identified, leaving, muted⟩ := out
      constructor
      case identity => exact iff_of_false (fun none => unconfigured (h.identity.1 none)) nofun
      case timing =>
        exact iff_of_false (fun none => (h.timing.1 none).elim unconfigured identified) (fun is => is.elim nofun nofun)
      case ticks => exact h.ticks.trans joined
      case watch => exact ⟨fun _ => rfl, fun _ => h.watch.2 joined⟩
      case muted => exact iff_of_false (fun is => muted (h.muted.1 is)) nofun
      case leaving => exact iff_of_false (fun is => leaving (h.leaving.1 is)) nofun
      case joining => exact iff_of_false nofun (fun is => is.elim nofun nofun)
      case notJoined => nofun
      case noSearch => exact fun noOp => absurd rfl noOp
      case noHold => exact fun noOp => absurd rfl noOp
      case allFree => exact fun early => early.elim nofun nofun
      case silent => nofun
      case withdraw => exact fun _ => h.withdraw leaving
    · exact counted
  · exact h

theorem Agree.countListen (h : s.Agree) (joined : s.sc.station.joined = true) : s.countListen.Agree := by
  unfold State.countListen
  split
  · rename_i station
    dsimp only
    split
    · have early : s.sc.station = .listening ∨ s.sc.station = .announcing := .inl station
      have out : s.sc.station ≠ .unconfigured ∧ s.sc.station ≠ .identified ∧ s.sc.station ≠ .leaving ∧
          s.sc.station ≠ .muted ∧ s.sc.station ≠ .operating := by rw [station]; exact ⟨nofun, nofun, nofun, nofun, nofun⟩
      obtain ⟨unconfigured, identified, leaving, muted, operating⟩ := out
      constructor
      case identity => exact iff_of_false (fun none => unconfigured (h.identity.1 none)) nofun
      case timing =>
        exact iff_of_false (fun none => (h.timing.1 none).elim unconfigured identified) (fun is => is.elim nofun nofun)
      case ticks => exact h.ticks.trans joined
      case watch => exact ⟨fun _ => rfl, fun _ => h.watch.2 joined⟩
      case muted => exact iff_of_false (fun is => muted (h.muted.1 is)) nofun
      case leaving => exact iff_of_false (fun is => leaving (h.leaving.1 is)) nofun
      case joining => exact ⟨fun _ => .inr rfl, fun _ => h.joining.2 early⟩
      case notJoined => nofun
      case noSearch => exact fun _ _ => h.noSearch operating muted
      case noHold => exact fun _ => h.noHold operating
      case allFree => exact fun _ => h.allFree early
      case silent => nofun
      case withdraw => exact fun _ => h.withdraw leaving
    · exact h.of_eq rfl Iff.rfl rfl (vacuous_left joined) rfl rfl rfl
  · exact h

/-! ### The end of a membership -/

theorem parted_slot (s : State) (i : Fin 8) : s.parted.slot i = .free := Vector.getElem_replicate ..

theorem parted_entry (s : State) (p : Fin 10) : s.parted.entry p = none := Vector.getElem_replicate ..

theorem parted_left (free : s.lac.attempt = none) : s.parted.left :=
  ⟨rfl, rfl, rfl, rfl, rfl, parted_slot s, rfl, parted_entry s, free, rfl, rfl, rfl⟩

/-- The end of a membership leaves a CONFIGURED station that agrees (R181). -/
theorem agree_finishLeave (identity : s.sc.identity ≠ none) (timing : s.sc.timing ≠ none) (free : s.lac.attempt = none)
    (joining : s.sc.joinWaiting = none) (psu : s.psu.queue = [] ∧ s.psu.context = none) (status : Status) :
    (s.finishLeave status).Agree := by
  rw [finishLeave_eq, completeLeaving_eq]
  constructor
  case identity => exact iff_of_false identity nofun
  case timing => exact iff_of_false timing (fun is => is.elim nofun nofun)
  case ticks => rfl
  case watch => exact iff_of_false (fun ne => ne rfl) nofun
  case muted => exact iff_of_false nofun nofun
  case leaving => exact iff_of_false nofun nofun
  case joining => exact iff_of_false (by show ¬s.sc.joinWaiting.isSome = true; rw [joining]; nofun) (fun is => is.elim nofun nofun)
  case notJoined => exact fun _ => parted_left free
  case noSearch => exact fun _ _ => psu
  case noHold => exact fun _ i => by show (s.parted.slot i).isLive = false; rw [parted_slot]; rfl
  case allFree => exact fun _ => parted_slot s
  case silent => nofun
  case withdraw => exact fun _ => ⟨fun p => by show (s.parted.entry p).any _ = false; rw [parted_entry]; rfl, by
    show s.lac.attempt.any _ = false; rw [free]; rfl⟩

/-- A joined station is configured and timed (R170). -/
theorem Agree.configured (h : s.Agree) (joined : s.sc.station.joined = true) :
    s.sc.identity ≠ none ∧ s.sc.timing ≠ none := by
  constructor
  · intro none
    rw [h.identity.1 none] at joined
    cases joined
  · intro none
    rcases h.timing.1 none with is | is <;> rw [is] at joined <;> cases joined

theorem Agree.noJoin (h : s.Agree) (station : ¬(s.sc.station = .listening ∨ s.sc.station = .announcing)) :
    s.sc.joinWaiting = none := by
  rw [← Option.not_isSome_iff_eq_none, h.joining]
  exact station

theorem Agree.noLeave (h : s.Agree) (station : s.sc.station ≠ .leaving) : s.sc.leaveWaiting = none := by
  rw [← Option.not_isSome_iff_eq_none, h.leaving]
  exact station

theorem Agree.finishLeave (h : s.Agree) (leaving : s.sc.station = .leaving) (free : s.lac.attempt = none)
    (status : Status) : (s.finishLeave status).Agree := by
  obtain ⟨identity, timing⟩ := h.configured (by rw [leaving]; rfl)
  exact agree_finishLeave identity timing free (h.noJoin (by rw [leaving]; nofun))
    (h.noSearch (by rw [leaving]; nofun) (by rw [leaving]; nofun)) status

/-! ### MUTED entry -/

theorem enterMuted_work (s : State) : Work outsideBlocks s.silenced s.enterMuted := by
  rw [enterMuted_eq]
  exact (Work.muteHolds _).blocks_of_holds.trans (Work.advertDiscarded _).blocks_of_advert

theorem enterMuted_sc (s : State) : s.enterMuted.sc = { s.sc with station := .muted, muted := true } := by
  rw [(enterMuted_work s).sc, silenced_sc]

theorem enterMuted_entry (s : State) (p : Fin 10) : s.enterMuted.entry p = none :=
  (enterMuted_work s).orderly.quiet (by rw [silenced_sc]) (silenced_entry s) p

theorem enterMuted_attempt (s : State) : s.enterMuted.lac.attempt = none :=
  (enterMuted_work s).attempt.trans (silenced_attempt s)

theorem enterMuted_psu (s : State) : s.enterMuted.psu = s.psu := (enterMuted_work s).psu.trans (silenced_psu s)

theorem enterMuted_watch (s : State) : s.enterMuted.lac.watch = s.lac.watch :=
  (enterMuted_work s).watch.trans (silenced_watch s)

theorem slots_advertDiscarded (s : State) : s.advertDiscarded.hu.slots = s.hu.slots := rfl

theorem enterMuted_slot (s : State) (i : Fin 8) : s.enterMuted.slot i = (s.slot i).muted := by
  rw [enterMuted_eq, slot_of_slots (slots_advertDiscarded _),
    muteHolds_slot, slot_of_slots (congrArg Hu.slots (silenced_hu s))]

theorem muted_isLive (x : Slot) : x.muted.isLive = false := by cases x <;> rfl

/-- A muted station agrees, once no JOIN waits (R179). -/
theorem agree_muted {m : State} (identity : m.sc.identity ≠ none) (timing : m.sc.timing ≠ none)
    (station : m.sc.station = .muted) (isMuted : m.sc.muted = true) (ticks : m.sc.riTimer.isSome = true)
    (watch : m.lac.watch ≠ .off) (noLeave : m.sc.leaveWaiting = none) (live : ∀ i : Fin 8, (m.slot i).isLive = false)
    (silent : m.silentLine) (status : Status) : (m.completeJoin status).Agree := by
  rw [completeJoin_eq]
  obtain ⟨free, entries⟩ := silent
  constructor <;> dsimp only <;> rw [station]
  case identity => exact iff_of_false identity nofun
  case timing => exact iff_of_false timing (fun is => is.elim nofun nofun)
  case ticks => exact ticks
  case watch => exact ⟨fun _ => rfl, fun _ => watch⟩
  case muted => exact iff_of_true isMuted rfl
  case leaving => exact iff_of_false (by rw [noLeave]; nofun) nofun
  case joining => exact iff_of_false nofun (fun is => is.elim nofun nofun)
  case notJoined => nofun
  case noSearch => exact fun _ no => absurd rfl no
  case noHold => exact fun _ => live
  case allFree => exact fun early => early.elim nofun nofun
  case silent => exact fun _ => ⟨free, entries⟩
  case withdraw =>
    refine fun _ => ⟨fun p => ?_, ?_⟩
    · exact congrArg (Option.any Entry.withdraws) (entries p)
    · exact congrArg (Option.any fun a : Attempt => a.kind == .withdraw) free

theorem Agree.enterMuted (h : s.Agree) (joined : s.sc.station.joined = true) (leaving : s.sc.station ≠ .leaving)
    (status : Status) : (s.enterMuted.completeJoin status).Agree := by
  obtain ⟨identity, timing⟩ := h.configured joined
  have sc := enterMuted_sc s
  refine agree_muted ?_ ?_ ?_ ?_ ?_ ?_ ?_ ?_ ⟨enterMuted_attempt s, enterMuted_entry s⟩ status
  · rw [sc]
    exact identity
  · rw [sc]
    exact timing
  · rw [sc]
  · rw [sc]
  · rw [sc]
    exact h.ticks.trans joined
  · rw [enterMuted_watch]
    exact h.watch.2 joined
  · rw [sc]
    exact h.noLeave leaving
  · intro i
    rw [enterMuted_slot]
    exact muted_isLive _

theorem completeJoin_of_none (none : s.sc.joinWaiting = none) (status : Status) : s.completeJoin status = s := by
  unfold State.completeJoin
  rw [none]

theorem Agree.duplicateReport (h : s.Agree) : s.duplicateReport.Agree := by
  unfold State.duplicateReport
  split
  · rename_i station
    exact h.enterMuted (by rw [station]; rfl) (by rw [station]; nofun) _
  · rename_i station
    exact h.enterMuted (by rw [station]; rfl) (by rw [station]; nofun) _
  · rename_i station
    have none : s.enterMuted.sc.joinWaiting = none := by
      rw [enterMuted_sc]
      exact h.noJoin (by rw [station]; exact fun is => is.elim nofun nofun)
    rw [← completeJoin_of_none none .ok]
    exact h.enterMuted (by rw [station]; rfl) (by rw [station]; nofun) _
  · rename_i station
    obtain ⟨identity, timing⟩ := h.configured (by rw [station]; rfl)
    refine agree_finishLeave ?_ ?_ (enterMuted_attempt s) ?_ ?_ _
    · rw [enterMuted_sc]
      exact identity
    · rw [enterMuted_sc]
      exact timing
    · rw [enterMuted_sc]
      exact h.noJoin (by rw [station]; exact fun is => is.elim nofun nofun)
    · rw [enterMuted_psu]
      exact h.noSearch (by rw [station]; nofun) (by rw [station]; nofun)
  · exact h

end State

end Sys2Proof.Machine

namespace Sys2Proof.Machine

namespace State

variable {s t : State}

/-! ### Each part of an event keeps the agreement -/

theorem onLine_makeDue_attempt (s : State) (p : Fin 10) (k : FrameKind) (c : Fin 3) :
    (s.makeDue p k c).lac.attempt = s.lac.attempt := by
  rw [State.makeDue_eq]
  rfl

theorem sc_makeDue (s : State) (p : Fin 10) (k : FrameKind) (c : Fin 3) : (s.makeDue p k c).sc = s.sc := by
  rw [State.makeDue_eq]
  rfl

theorem watch_makeDue (s : State) (p : Fin 10) (k : FrameKind) (c : Fin 3) :
    (s.makeDue p k c).lac.watch = s.lac.watch := by
  rw [State.makeDue_eq]
  rfl

theorem unwithdrawn_makeDue {p : Fin 10} {k : FrameKind} {c : Fin 3} (kind : carries p k = true)
    (cls : classFits k c = true) (other : k ≠ .withdraw) (h : s.unwithdrawn) : (s.makeDue p k c).unwithdrawn :=
  ⟨(Orderly.makeDue kind cls other).withdraws h.1, by rw [onLine_makeDue_attempt]; exact h.2⟩

/-- A search, or a queued request, is a station's in OPERATING or MUTED (R118). -/
theorem Agree.searching (h : s.Agree) (flight : s.psu.context ≠ none ∨ s.psu.queue ≠ []) {P : Prop}
    (operating : s.sc.station ≠ .operating) (muted : s.sc.station ≠ .muted) : P := by
  obtain ⟨queue, context⟩ := h.noSearch operating muted
  exact (flight.elim (fun ne => ne context) (fun ne => ne queue)).elim

/-- Work on the path queue and the completion queue alone, in OPERATING and MUTED. -/
theorem Agree.of_search (h : s.Agree) (psu : Psu) (clp : Clp)
    (searches : s.sc.station ≠ .operating → s.sc.station ≠ .muted → psu = s.psu) :
    Agree { s with psu := psu, clp := clp } :=
  h.transfer rfl Iff.rfl searches (fun _ left => left) (fun _ _ => id) (fun _ _ => id) (fun _ => id) (fun _ => id)

theorem Agree.endSearch (h : s.Agree) (flight : s.psu.context ≠ none ∨ s.psu.queue ≠ []) (done : Completion) :
    (s.endSearch done).Agree :=
  h.of_search _ _ (h.searching flight)

theorem completeAbort_eq (s : State) (tag : Option Tag) : s.completeAbort tag = { s with
    clp := { s.clp with
      completions := s.clp.completions ++ (tag.map (fun t => Completion.plain .abort t .ok)).toList
      reservations := s.clp.reservations - tag.toList.length } } := by
  cases tag with
  | none =>
    obtain ⟨_, _, _, _, _, _, _, _, _, _, ⟨_, _, _, _, _⟩, _, _⟩ := s
    simp [State.completeAbort]
  | some t => rfl

theorem Agree.completeAbort (h : s.Agree) (tag : Option Tag) : (s.completeAbort tag).Agree := by
  rw [completeAbort_eq]
  exact h.of_search s.psu _ (fun _ _ => rfl)

/-- An own hold stands in its slot, before its ANNOUNCE is due (R92). -/
def withHold (i : Fin 8) (tag : Tag) (priority start width : Nat) (links : List LinkKey) (s : State) : State :=
  ({ s.putHold ⟨s.ownId, s.nextNumber, true, priority, false, false, start, width, links, none⟩ with
    hu.lastNumber := s.nextNumber }.count 1).setSlot i (.live (.pending none) s.nextNumber tag)

theorem createHold_eq (s : State) (i : Fin 8) (tag : Tag) (priority start width : Nat) (links : List LinkKey) :
    s.createHold i tag priority start width links =
      (s.withHold i tag priority start width links).makeDue (holdPlace i) .announce 1 := rfl

theorem carries_holdPlace {k : FrameKind} (i : Fin 8) (hold : k = .announce ∨ k = .object ∨ k = .commit ∨ k = .release) :
    carries (holdPlace i) k = true := by
  rcases hold with rfl | rfl | rfl | rfl <;> exact decide_eq_true i.isLt

/-- An own hold is created in OPERATING (R92, R143). -/
theorem Agree.createHold (h : s.Agree) (operating : s.sc.station = .operating) (i : Fin 8) (tag : Tag)
    (priority start width : Nat) (links : List LinkKey) : (s.createHold i tag priority start width links).Agree := by
  have held : (s.withHold i tag priority start width links).Agree :=
    h.transfer rfl Iff.rfl (fun _ _ => rfl) (vacuous_left (by rw [operating]; rfl)) (fun no => absurd operating no)
      (fun no => absurd operating no) (fun _ => id) (fun _ => id)
  have station : (s.withHold i tag priority start width links).sc.station = .operating := operating
  rw [createHold_eq]
  generalize s.withHold i tag priority start width links = u at held station
  refine held.transfer (by rw [State.standing, sc_makeDue]; rfl) (by rw [watch_makeDue])
    (fun _ _ => psu_of_lasting (lasting_makeDue _ _ _ _)) (vacuous_left (by rw [station]; rfl))
    (fun no => absurd station no) (fun no => absurd station no) (fun muted => by rw [station] at muted; cases muted)
    (fun _ => unwithdrawn_makeDue (carries_holdPlace i (.inl rfl)) rfl nofun)

theorem psu_createHold (s : State) (i : Fin 8) (tag : Tag) (priority start width : Nat) (links : List LinkKey) :
    (s.createHold i tag priority start width links).psu = s.psu := psu_of_lasting (lasting_createHold ..)

theorem operating_of_search (h : s.Agree) (flight : s.psu.context ≠ none) (operates : s.sc.station ≠ .muted) :
    s.sc.station = .operating := by
  by_contra no
  exact h.searching (.inl flight) no operates

theorem Agree.searched (h : s.Agree) (step : s.Searched t) : t.Agree := by
  cases step with
  | unchanged => exact h
  | start r rest idle queue => exact h.of_search _ s.clp (h.searching (.inr (by rw [queue]; nofun)))
  | step c c' context => exact h.of_search _ s.clp (h.searching (.inl (by rw [context]; nofun)))
  | ended done flight =>
    refine h.endSearch (flight.imp (fun some => ?_) id) done
    rintro none
    rw [none] at some
    cases some
  | aborted c context => exact (h.endSearch (.inl (by rw [context]; nofun)) _).completeAbort _
  | held c r i done context unmarked operates free =>
    have flight : s.psu.context ≠ none := by rw [context]; nofun
    have created := h.createHold (operating_of_search h flight operates) i c.request.tag c.request.priority r.window
      c.request.width (r.path.map Prod.fst)
    exact created.endSearch (.inl (by rw [psu_createHold]; exact flight)) done

theorem Agree.part (h : s.Agree) (part : s.Part t) : t.Agree := by
  cases part with
  | elapse dt => exact h.elapse dt
  | line => exact h.of_eq rfl Iff.rfl rfl (fun _ left => left) rfl rfl rfl
  | watch w off => exact h.of_eq rfl off rfl (fun _ left => left) rfl rfl rfl
  | isolate joined =>
    rw [State.setIsolated_eq]
    exact h.of_eq rfl Iff.rfl rfl (vacuous_left joined) rfl rfl rfl
  | start p may => exact h.startAttempt may
  | close a bits attempt => exact h.closeAttempt attempt bits
  | followOn p e free entry =>
    refine h.setEntry entry fun none => ?_
    rw [Entry.withdraws_eq_false] at none
    cases follow : e.followOn with
    | none => rfl
    | some f =>
      have := none.2 f follow
      simp only [Option.map_some, Option.any_some, Entry.withdraws_eq_false]
      exact ⟨this, nofun⟩
  | backOff p e free entry few =>
    exact (h.of_eq (t := { s with lac.lfsr := advanceLfsr s.lac.lfsr }) rfl Iff.rfl rfl (fun _ left => left) rfl rfl
      rfl).setEntry entry id
  | dropEntry p free =>
    cases entry : s.entry p with
    | none =>
      rw [setEntry_none_of_absent entry]
      exact h
    | some e => exact h.setEntry entry fun _ => rfl
  | block joined work => exact h.work work.work joined
  | sequence joined | fresh joined | flags joined | reload joined =>
    exact h.of_eq rfl Iff.rfl rfl (vacuous_left joined) rfl rfl rfl
  | announced joined => exact h.countAnnounced joined
  | left leaving free status => exact h.finishLeave leaving free status
  | duplicate => exact h.duplicateReport
  | restart running =>
    exact h.of_eq (by simp [State.standing, running]) Iff.rfl rfl (fun _ left => left) rfl rfl rfl
  | tickDebt joined =>
    unfold State.tickDebt
    split
    · exact h.of_eq rfl Iff.rfl rfl (vacuous_left joined) rfl rfl rfl
    · split
      · exact h.of_eq rfl Iff.rfl rfl (vacuous_left joined) rfl rfl rfl
      · exact h
  | listen joined => exact h.countListen joined
  | search step => exact h.searched step

/-! ### Each owner keeps the agreement -/

theorem Agree.of_clp (h : s.Agree) (clp : Clp) : Agree { s with clp := clp } :=
  h.of_search s.psu clp (fun _ _ => rfl)

theorem Agree.post (h : s.Agree) (done : Completion) : (s.post done).Agree := h.of_clp _

theorem Agree.configure (h : s.Agree) (station : s.sc.station = .unconfigured) (node : BitVec 16) (v : Identity) :
    (s.setIdentity node v).Agree := by
  have timing : s.sc.timing = none := h.timing.2 (.inl station)
  have unjoined : s.sc.station.joined = false := by rw [station]; rfl
  constructor
  case identity => exact iff_of_false nofun nofun
  case timing => exact iff_of_true timing (.inr rfl)
  case ticks => exact h.ticks.trans unjoined
  case watch => exact iff_of_false (fun ne => by have := h.watch.1 ne; rw [unjoined] at this; cases this) nofun
  case muted => exact iff_of_false (fun is => by have := h.muted.1 is; rw [station] at this; cases this) nofun
  case leaving => exact iff_of_false (fun is => by have := h.leaving.1 is; rw [station] at this; cases this) nofun
  case joining =>
    exact iff_of_false (fun is => by have := h.joining.1 is; rw [station] at this; exact this.elim nofun nofun)
      (fun is => is.elim nofun nofun)
  case notJoined => exact fun _ => h.notJoined unjoined
  case noSearch => exact fun _ _ => h.noSearch (by rw [station]; nofun) (by rw [station]; nofun)
  case noHold => exact fun _ => h.noHold (by rw [station]; nofun)
  case allFree => exact fun is => is.elim nofun nofun
  case silent => nofun
  case withdraw => exact fun _ => h.withdraw (by rw [station]; nofun)

theorem Agree.time (h : s.Agree) (station : s.sc.station = .identified) (v : Timing) : (s.setTiming v).Agree := by
  have unjoined : s.sc.station.joined = false := by rw [station]; rfl
  constructor
  case identity =>
    exact iff_of_false (fun none => by have := h.identity.1 none; rw [station] at this; cases this) nofun
  case timing => exact iff_of_false nofun (fun is => is.elim nofun nofun)
  case ticks => exact h.ticks.trans unjoined
  case watch => exact iff_of_false (fun ne => by have := h.watch.1 ne; rw [unjoined] at this; cases this) nofun
  case muted => exact iff_of_false (fun is => by have := h.muted.1 is; rw [station] at this; cases this) nofun
  case leaving => exact iff_of_false (fun is => by have := h.leaving.1 is; rw [station] at this; cases this) nofun
  case joining =>
    exact iff_of_false (fun is => by have := h.joining.1 is; rw [station] at this; exact this.elim nofun nofun)
      (fun is => is.elim nofun nofun)
  case notJoined => exact fun _ => h.notJoined unjoined
  case noSearch => exact fun _ _ => h.noSearch (by rw [station]; nofun) (by rw [station]; nofun)
  case noHold => exact fun _ => h.noHold (by rw [station]; nofun)
  case allFree => exact fun is => is.elim nofun nofun
  case silent => nofun
  case withdraw => exact fun _ => h.withdraw (by rw [station]; nofun)

theorem ownStored_work (s : State) : Work outsideBlocks s.joinAds s.ownStored := .insertOwn _ _

/-- A station that listens agrees (R174). -/
theorem agree_listens {u : State} (identity : u.sc.identity ≠ none) (timing : u.sc.timing ≠ none)
    (muted : u.sc.muted = false) (ticks : u.sc.riTimer.isSome = true) (watch : u.lac.watch ≠ .off)
    (joining : u.sc.joinWaiting.isSome = true) (leaving : u.sc.leaveWaiting = none)
    (search : u.psu.queue = [] ∧ u.psu.context = none) (slots : ∀ i : Fin 8, u.slot i = .free) (out : u.unwithdrawn) :
    Agree { u with sc.station := .listening } where
  identity := iff_of_false identity nofun
  timing := iff_of_false timing (fun is => is.elim nofun nofun)
  ticks := ticks
  watch := iff_of_true watch rfl
  muted := iff_of_false (by rw [muted]; nofun) nofun
  leaving := iff_of_false (by rw [leaving]; nofun) nofun
  joining := iff_of_true joining (.inl rfl)
  notJoined := nofun
  noSearch _ _ := search
  noHold _ i := (congrArg Slot.isLive (slots i)).trans rfl
  allFree _ := slots
  silent := nofun
  withdraw _ := out

theorem joined_sc (s : State) (tag : Tag) :
    (s.joined tag).sc = { s.sc with riTimer := some 0, listen := 0, joinWaiting := some tag } := by
  show ({ s.ownStored.sc with riTimer := some 0, listen := 0, joinWaiting := some tag } : Sc) = _
  rw [ownStored_sc]

theorem joined_slot (s : State) (tag : Tag) (i : Fin 8) (free : s.slot i = .free) : (s.joined tag).slot i = .free :=
  (ownStored_work s).orderly.free i free

theorem joined_attempt (s : State) (tag : Tag) : (s.joined tag).lac.attempt = s.lac.attempt := (ownStored_work s).attempt

theorem joined_psu (s : State) (tag : Tag) : (s.joined tag).psu = s.psu := (ownStored_work s).psu

theorem joined_unwithdrawn (s : State) (tag : Tag) (h : s.unwithdrawn) : (s.joined tag).unwithdrawn :=
  ⟨(ownStored_work s).orderly.withdraws h.1, by rw [joined_attempt]; exact h.2⟩

theorem joined_watch (s : State) (tag : Tag) : (s.joined tag).lac.watch = .running 0 := rfl

/-- JOIN begins a membership that agrees (R174). -/
theorem Agree.ownJoin (h : s.Agree) (station : s.sc.station = .configured) (tag : Tag) : (s.ownJoin tag).Agree := by
  obtain ⟨-, -, -, -, -, free, -⟩ := h.notJoined (by rw [station]; rfl)
  rw [ownJoin_configured station]
  refine agree_listens ?_ ?_ ?_ ?_ ?_ ?_ ?_ ?_ (fun i => ?_) (unwithdrawn_makeDue rfl rfl nofun (joined_unwithdrawn s tag ?_))
  case refine_9 => rw [slot_makeDue, joined_slot s tag i (free i)]
  case refine_5 => rw [watch_makeDue, joined_watch]; nofun
  case refine_8 =>
    rw [psu_of_lasting (lasting_makeDue _ _ _ _), joined_psu]
    exact h.noSearch (by rw [station]; nofun) (by rw [station]; nofun)
  case refine_10 => exact h.withdraw (by rw [station]; nofun)
  all_goals rw [sc_makeDue, joined_sc]
  case refine_1 =>
    intro none
    have is := h.identity.1 none
    rw [station] at is
    cases is
  case refine_2 =>
    intro none
    have is := h.timing.1 none
    rw [station] at is
    exact is.elim nofun nofun
  case refine_3 =>
    refine Bool.eq_false_of_not_eq_true fun is => ?_
    have is := h.muted.1 is
    rw [station] at is
    cases is
  case refine_4 | refine_6 => rfl
  case refine_7 => exact h.noLeave (by rw [station]; nofun)

end State

end Sys2Proof.Machine

namespace Sys2Proof.Machine

namespace State

variable {s t : State}

/-! ### LEAVE -/

theorem foldl_post {α : Type} (f : α → Completion) (l : List α) (s : State) :
    l.foldl (fun s r => s.post (f r)) s = { s with clp := { s.clp with
      completions := s.clp.completions ++ l.map f, reservations := s.clp.reservations - l.length } } := by
  induction l generalizing s with
  | nil =>
    obtain ⟨_, _, _, _, _, _, _, _, _, _, ⟨_, _, _, _, _⟩, _, _⟩ := s
    simp
  | cons r l ih =>
    rw [List.foldl_cons, ih]
    simp only [State.post, List.append_assoc, List.map_cons, List.singleton_append, List.length_cons, Nat.sub_sub,
      Nat.add_comm 1]

section
variable {c : Context} {r : PathRequest} {rest : List PathRequest}

/-- With a search in flight its request completes first, then the ABORT that marked it, then the queue (R136). -/
theorem flushPaths_inFlight (context : s.psu.context = some c) (queue : s.psu.queue = r :: rest) : s.flushPaths =
    ((State.post (abortedCompletion r c.passes) { s with psu.queue := [], psu.context := none }).completeAbort
      c.abortTag).abortAll rest := by
  obtain ⟨_, _, _, _, _, _, _, _, _, ⟨_, _⟩, _, _, _⟩ := s
  cases context
  cases queue
  rfl

theorem pathsFlushed_inFlight (context : s.psu.context = some c) (queue : s.psu.queue = r :: rest) : s.pathsFlushed =
    [abortedCompletion r c.passes] ++ (c.abortTag.map (fun t => Completion.plain .abort t .ok)).toList
      ++ rest.map (fun r => abortedCompletion r 0) := by
  obtain ⟨_, _, _, _, _, _, _, _, _, ⟨_, _⟩, _, _, _⟩ := s
  cases context
  cases queue
  rfl

/-- With none in flight every request of the queue completes (R136). -/
theorem flushPaths_queued (idle : s.psu.context = none ∨ s.psu.queue = []) : s.flushPaths =
    State.abortAll s.psu.queue { s with psu.queue := [], psu.context := none } := by
  obtain ⟨_, _, _, _, _, _, _, _, _, ⟨_, context⟩, _, _, _⟩ := s
  rcases idle with none | empty
  · cases none
    rfl
  · cases empty
    cases context <;> rfl

theorem pathsFlushed_queued (idle : s.psu.context = none ∨ s.psu.queue = []) :
    s.pathsFlushed = s.psu.queue.map (fun r => abortedCompletion r 0) := by
  obtain ⟨_, _, _, _, _, _, _, _, _, ⟨_, context⟩, _, _, _⟩ := s
  rcases idle with none | empty
  · cases none
    rfl
  · cases empty
    cases context <;> rfl
end

/-- The flush of the path queue writes the queue and the completions alone (R136). -/
theorem flushPaths_eq (s : State) : s.flushPaths = { s with
    psu := ⟨[], none⟩
    clp := { s.clp with
      completions := s.clp.completions ++ s.pathsFlushed
      reservations := s.clp.reservations - s.pathsFlushed.length } } := by
  cases context : s.psu.context with
  | none =>
    rw [flushPaths_queued (.inl context), pathsFlushed_queued (.inl context), State.abortAll, foldl_post, List.length_map]
  | some c =>
    cases queue : s.psu.queue with
    | nil =>
      rw [flushPaths_queued (.inr queue), pathsFlushed_queued (.inr queue), State.abortAll, foldl_post, List.length_map]
    | cons r rest =>
      rw [flushPaths_inFlight context queue, pathsFlushed_inFlight context queue, State.abortAll, foldl_post, completeAbort_eq]
      cases c.abortTag <;>
        simp only [State.post, Option.map_none, Option.map_some, Option.toList_none, Option.toList_some,
          List.append_nil, List.append_assoc, List.cons_append, List.nil_append, List.length_nil,
          List.length_cons, List.length_map, Nat.sub_sub, Nat.sub_zero, Nat.add_comm 1, Nat.add_assoc]

theorem flushPaths_sc (s : State) : s.flushPaths.sc = s.sc := by
  rw [flushPaths_eq]

theorem flushPaths_lac (s : State) : s.flushPaths.lac = s.lac := by
  rw [flushPaths_eq]

theorem flushPaths_hu (s : State) : s.flushPaths.hu = s.hu := by
  rw [flushPaths_eq]

theorem completeJoin_sc (s : State) (status : Status) :
    (s.completeJoin status).sc = { s.sc with joinWaiting := none } := by
  rw [completeJoin_eq]

theorem completeJoin_lac (s : State) (status : Status) : (s.completeJoin status).lac = s.lac := by
  rw [completeJoin_eq]

theorem completeJoin_hu (s : State) (status : Status) : (s.completeJoin status).hu = s.hu := by
  rw [completeJoin_eq]

theorem sc_withdrawEntry (s : State) (p : Fin 10) : (s.withdrawEntry p).sc = s.sc := by
  rw [State.withdrawEntry_eq]
  rfl

theorem watch_withdrawEntry (s : State) (p : Fin 10) : (s.withdrawEntry p).lac.watch = s.lac.watch := by
  rw [State.withdrawEntry_eq]
  rfl

theorem leaves_sc (s : State) : s.leaves.sc = { s.sc with joinWaiting := none } := by
  unfold State.leaves
  rw [sc_makeDue, sc_withdrawEntry, (Work.leaveHolds _).blocks_of_holds.sc, flushPaths_sc, completeJoin_sc]

theorem leaves_watch (s : State) : s.leaves.lac.watch = s.lac.watch := by
  unfold State.leaves
  rw [watch_makeDue, watch_withdrawEntry, (Work.leaveHolds _).blocks_of_holds.watch, flushPaths_lac, completeJoin_lac]

theorem leaves_psu (s : State) : s.leaves.psu = ⟨[], none⟩ :=
  (psu_of_lasting (lasting_leaves s)).trans (flushPaths_psu _)

theorem leaves_slot (s : State) (i : Fin 8) : s.leaves.slot i = s.slotLeft i := by
  unfold State.leaves
  rw [slot_makeDue, slot_withdrawEntry, leaveHolds_slot]
  refine slotLeft_of_eq ?_ (slot_of_slots ?_ i)
  · rw [flushPaths_lac, completeJoin_lac]
  · rw [flushPaths_hu, completeJoin_hu]

theorem slotLeft_isLive (s : State) (i : Fin 8) : (s.slotLeft i).isLive = false := by
  unfold State.slotLeft
  split
  · rfl
  · split <;> rfl
  all_goals rfl

/-- A station in LEAVING agrees (R180). -/
theorem agree_leaves {u : State} (identity : u.sc.identity ≠ none) (timing : u.sc.timing ≠ none)
    (muted : u.sc.muted = false) (ticks : u.sc.riTimer.isSome = true) (watch : u.lac.watch ≠ .off)
    (joining : u.sc.joinWaiting = none) (search : u.psu.queue = [] ∧ u.psu.context = none)
    (slots : ∀ i : Fin 8, (u.slot i).isLive = false) (tag : Tag) : Agree (u.leaveWaits tag) where
  identity := iff_of_false identity nofun
  timing := iff_of_false timing (fun is => is.elim nofun nofun)
  ticks := ticks
  watch := iff_of_true watch rfl
  muted := iff_of_false (by show ¬u.sc.muted = true; rw [muted]; nofun) nofun
  leaving := iff_of_true rfl rfl
  joining := iff_of_false (by show ¬u.sc.joinWaiting.isSome = true; rw [joining]; nofun) (fun is => is.elim nofun nofun)
  notJoined := nofun
  noSearch _ _ := search
  noHold _ := slots
  allFree is := is.elim nofun nofun
  silent := nofun
  withdraw no := absurd rfl no

theorem Agree.notMuted (h : s.Agree) (station : s.sc.station ≠ .muted) : s.sc.muted = false :=
  Bool.eq_false_of_not_eq_true fun is => station (h.muted.1 is)

theorem Agree.beginLeave (h : s.Agree) (joined : s.sc.station.joined = true) (unmuted : s.sc.station ≠ .muted) (tag : Tag) :
    (s.beginLeave tag).Agree := by
  obtain ⟨identity, timing⟩ := h.configured joined
  have sc := leaves_sc s
  have psu := leaves_psu s
  have watch := leaves_watch s
  have slots := leaves_slot s
  rw [beginLeave_eq]
  generalize s.leaves = u at sc psu watch slots
  refine agree_leaves ?_ ?_ ?_ ?_ ?_ ?_ ?_ (fun i => ?_) tag
  case refine_5 => rw [watch]; exact h.watch.2 joined
  case refine_7 => rw [psu]; exact ⟨rfl, rfl⟩
  case refine_8 => rw [slots, slotLeft_isLive]
  all_goals rw [sc]
  case refine_1 => exact identity
  case refine_2 => exact timing
  case refine_3 => exact h.notMuted unmuted
  case refine_4 => exact h.ticks.trans joined

theorem noteLeave_attempt (s : State) (tag : Tag) : (s.noteLeave tag).lac.attempt = s.lac.attempt := rfl

theorem noteLeave_psu (s : State) (tag : Tag) : (s.noteLeave tag).psu = s.psu := rfl

theorem leavesMuted_sc (s : State) (tag : Tag) :
    (s.flushPaths.leaveHolds.noteLeave tag).sc = { s.sc with leaveWaiting := some tag } := by
  have work : s.flushPaths.leaveHolds.sc = s.sc := (Work.leaveHolds _).blocks_of_holds.sc.trans (flushPaths_sc s)
  show ({ s.flushPaths.leaveHolds.sc with leaveWaiting := some tag } : Sc) = _
  rw [work]

theorem Agree.leaveMuted (h : s.Agree) (station : s.sc.station = .muted) (tag : Tag) : (s.leaveMuted tag).Agree := by
  obtain ⟨identity, timing⟩ := h.configured (by rw [station]; rfl)
  have sc := leavesMuted_sc s tag
  have attempt : (s.flushPaths.leaveHolds.noteLeave tag).lac.attempt = none := by
    rw [noteLeave_attempt, (Work.leaveHolds _).blocks_of_holds.attempt, flushPaths_lac]
    exact (h.silent station).1
  have psu : (s.flushPaths.leaveHolds.noteLeave tag).psu = ⟨[], none⟩ := by
    rw [noteLeave_psu, (Work.leaveHolds _).blocks_of_holds.psu, flushPaths_psu]
  rw [leaveMuted_eq]
  generalize s.flushPaths.leaveHolds.noteLeave tag = u at sc attempt psu
  refine agree_finishLeave ?_ ?_ attempt ?_ (by rw [psu]; exact ⟨rfl, rfl⟩) _
  all_goals rw [sc]
  · exact identity
  · exact timing
  · exact h.noJoin (by rw [station]; exact fun is => is.elim nofun nofun)

/-! ### The owners -/

/-- A LIVE slot is a station's in OPERATING (R90, R92). -/
theorem Agree.operating_of_live (h : s.Agree) {i : Fin 8} (live : (s.slot i).isLive = true) :
    s.sc.station = .operating := by
  by_contra no
  rw [h.noHold no i] at live
  cases live

/-- Work on the holds in OPERATING. -/
theorem Agree.of_holds (h : s.Agree) (operating : s.sc.station = .operating) (hu : Hu) : Agree { s with hu := hu } :=
  h.transfer rfl Iff.rfl (fun _ _ => rfl) (vacuous_left (by rw [operating]; rfl)) (fun no => absurd operating no)
    (fun no => absurd operating no) (fun _ => id) (fun _ => id)

theorem Agree.changePort (h : s.Agree) (p : Nat) (r : PortRecord) : (s.changePort p r).Agree := by
  have written : (s.setPort p r).Agree := h.of_eq rfl Iff.rfl rfl (fun _ left => left) rfl rfl rfl
  rcases changePort_work s p r with same | ⟨work, written' | joined⟩
  · rw [same]
    exact h
  · rw [written']
    exact written
  · exact written.work work joined

theorem Agree.polled (h : s.Agree) : Agree { s with hu.slots := s.hu.slots.map Slot.polled } := by
  have slot (i : Fin 8) : State.slot { s with hu.slots := s.hu.slots.map Slot.polled } i = (s.slot i).polled :=
    Vector.getElem_map ..
  refine h.transfer rfl Iff.rfl (fun _ _ => rfl) ?_ (fun _ i => ?_) (fun _ i => ?_) (fun _ => id) (fun _ => id)
  · rintro - ⟨nodes, links, incomplete, holds, overflow, slots, rest⟩
    exact ⟨nodes, links, incomplete, holds, overflow, fun i => by rw [slot, slots]; rfl, rest⟩
  · rw [slot]
    cases s.slot i <;> exact id
  · rw [slot]
    intro free
    rw [free]
    rfl

/-- Every owner keeps the agreement. -/
theorem Agree.owned (h : s.Agree) (own : s.Owned t) : t.Agree := by
  cases own with
  | posted done => exact h.post done
  | status done => exact h.of_clp _
  | identity node profile transit ports done station => exact (h.configure station node _).post done
  | timing v done station => exact (h.time station v).post done
  | profile i p done => exact Agree.post (h.of_eq (t := s.setProfile i p) rfl Iff.rfl rfl (fun _ left => left) rfl rfl rfl) done
  | join tag station => exact h.ownJoin station tag
  | leave tag station =>
    refine h.beginLeave ?_ ?_ tag <;> rcases station with is | is | is <;> rw [is] <;> first | rfl | nofun
  | leaveMuted tag station => exact h.leaveMuted station tag
  | port p r done => exact (h.changePort p r).post done
  | path r station => exact h.of_search _ s.clp fun no no' => (station.elim no no').elim
  | mark c tag context => exact h.of_search _ s.clp (h.searching (.inl (by rw [context]; nofun)))
  | unqueue queue done done' length =>
    have filled : s.psu.queue ≠ [] := fun none => by rw [none] at length; cases length
    exact ((h.of_search _ s.clp (h.searching (.inr filled))).post done).post done'
  | commit i n t tag sub sub' slot => exact h.of_holds (h.operating_of_live (by rw [slot]; rfl)) _
  | commitDue i n t tag slot =>
    have operating := h.operating_of_live (i := i) (by rw [slot]; rfl)
    exact (h.of_holds operating _).work
      (s := s.setSlot i (.live (.committing tag) n t)) ⟨by rw [State.makeDue_eq]; rfl, .makeDue (carries_holdPlace i (by tauto)) rfl nofun⟩ (by
        show s.sc.station.joined = true
        rw [operating]
        rfl)
  | release i sub n t done slot =>
    have operating := h.operating_of_live (i := i) (by rw [slot]; rfl)
    exact (h.work (Work.releaseLive s i sub n t).blocks_of_holds (by rw [operating]; rfl)).post done
  | poll done => exact h.polled.post done
  | block k m done =>
    refine Agree.post ?_ done
    unfold State.setBlock
    split
    · exact h
    · exact h.of_eq rfl Iff.rfl rfl (fun _ left => left) rfl rfl rfl

end State

open State

/-- The agreement reads neither the pins, the port, nor the model's own counts. -/
theorem State.Agree.of_inner {s t : State} (same : t.inner = s.inner) (h : s.Agree) : t.Agree := by
  have as {α : Type} (f : State → α) : f t.inner = f s.inner := congrArg f same
  have slots : t.hu.slots = s.hu.slots := as (fun x => x.hu.slots)
  have due : t.lac.due = s.lac.due := as (fun x => x.lac.due)
  have left : s.left = t.left := (as State.left).symm
  refine h.of_eq (as State.standing) (by rw [show t.lac.watch = s.lac.watch from as (fun x => x.lac.watch)])
    (as (fun x => x.psu)) (fun _ => cast left) slots due (as (fun x => x.lac.attempt))

/-- Settles O20, part by part of each event and owner by owner. -/
theorem everyStepKeepsAgreement : Obligations.EveryStepKeepsAgreement := by
  unfold Obligations.EveryStepKeepsAgreement
  intro s t
  refine step_keeps (P := State.Agree) ?inner ?reset ?fetch ?request ?event ?idle
  case inner => exact fun same h => h.of_inner same
  case reset => exact reset_agree
  case fetch => exact fun n h => h.of_clp _
  case request =>
    intro c own s owner _ h
    exact (State.Agree.of_inner (t := s.accepted) (by rfl) (h.of_clp s.accepted.clp)).owned (owned_of_requestOwner owner s.accepted)
  case event => exact fun worked h => event_keeps id (fun part h => h.part part) worked h
  case idle => exact fun h => h.elapse 1

end Sys2Proof.Machine

namespace Sys2Proof.Machine

namespace State

variable {s t : State}

/-! The completion accounts (R162). -/

/-- Making a kind due is the work of the blocks. -/
theorem Work.blocks_makeDue {p : Fin 10} {k : FrameKind} {c : Fin 3} (kind : carries p k = true) (cls : classFits k c = true)
    (other : k ≠ .withdraw) : Work outsideBlocks s (s.makeDue p k c) :=
  ⟨by rw [State.makeDue_eq]; rfl, .makeDue kind cls other⟩

/-- The accounts with `k` requests accepted beyond those that wait. -/
def Owed (k : Nat) (s : State) : Prop :=
  s.clp.reservations = s.waitingRequests + k ∧ s.clp.completions.length + s.clp.reservations ≤ 16
    ∧ (s.psu.context.isSome → s.psu.queue ≠ [])

theorem accounts_iff : s.Accounts ↔ s.Owed 0 := Iff.rfl

theorem waitingRequests_eq (s : State) : s.waitingRequests = s.psu.queue.length
    + (s.psu.context.bind Context.abortTag).toList.length + s.waitingCommits + s.sc.joinWaiting.toList.length
    + s.sc.leaveWaiting.toList.length := rfl

/-- Work that posts `n` completions, for as many requests that waited or were accepted. -/
theorem Owed.pays {k k' : Nat} (h : s.Owed k) (n : Nat)
    (completions : t.clp.completions.length = s.clp.completions.length + n)
    (reservations : t.clp.reservations = s.clp.reservations - n)
    (waits : t.waitingRequests + k' + n = s.waitingRequests + k)
    (flight : t.psu.context.isSome → t.psu.queue ≠ []) : t.Owed k' := by
  obtain ⟨owed, room, -⟩ := h
  exact ⟨by omega, by omega, flight⟩

/-- The requests that wait outside the slots. -/
def otherRequests (s : State) : Nat :=
  s.psu.queue.length + (s.psu.context.bind Context.abortTag).toList.length + s.sc.joinWaiting.toList.length
    + s.sc.leaveWaiting.toList.length

theorem waitingRequests_eq_add (s : State) : s.waitingRequests = s.otherRequests + s.waitingCommits := by
  rw [waitingRequests_eq, State.otherRequests]
  omega

/-- Work outside the slots that posts `n` completions. -/
theorem Owed.pays_outside {k k' : Nat} (h : s.Owed k) (n : Nat) (slots : t.hu.slots = s.hu.slots)
    (completions : t.clp.completions.length = s.clp.completions.length + n)
    (reservations : t.clp.reservations = s.clp.reservations - n)
    (waits : t.otherRequests + k' + n = s.otherRequests + k)
    (flight : t.psu.context.isSome → t.psu.queue ≠ []) : t.Owed k' := by
  refine h.pays n completions reservations ?_ flight
  rw [waitingRequests_eq_add, waitingRequests_eq_add, waitingCommits_congr slots]
  omega

/-- Work that leaves the queues and what waits. -/
theorem Owed.of_eq {k : Nat} (h : s.Owed k) (clp : t.clp.completions = s.clp.completions)
    (reservations : t.clp.reservations = s.clp.reservations) (psu : t.psu = s.psu) (slots : t.hu.slots = s.hu.slots)
    (joining : t.sc.joinWaiting = s.sc.joinWaiting) (leaving : t.sc.leaveWaiting = s.sc.leaveWaiting) : t.Owed k := by
  refine h.pays_outside 0 slots (by rw [clp]; rfl) reservations ?_ (by rw [psu]; exact h.2.2)
  rw [State.otherRequests, State.otherRequests, psu, joining, leaving]
  rfl

theorem Owed.post {k : Nat} (h : s.Owed (k + 1)) (done : Completion) : (s.post done).Owed k :=
  h.pays 1 (List.length_append ..) rfl (show s.waitingRequests + k + 1 = _ by omega) h.2.2

/-- The blocks' work pays for what it posts. -/
theorem Owed.work {k : Nat} (h : s.Owed k) (work : Work outsideBlocks s t) : t.Owed k := by
  obtain ⟨owed, room, flight⟩ := h
  rw [waitingRequests_eq] at owed
  obtain ⟨owed', same⟩ := work.orderly.accounts (s.psu.queue.length + (s.psu.context.bind Context.abortTag).toList.length
    + s.sc.joinWaiting.toList.length + s.sc.leaveWaiting.toList.length + k) (by omega)
  refine ⟨?_, by omega, by rw [work.psu]; exact flight⟩
  rw [waitingRequests_eq, work.psu, work.sc]
  omega

theorem waitingCommits_of_waiting (slot : ∀ i : Fin 8, (t.slot i).waiting = (s.slot i).waiting) :
    t.waitingCommits = s.waitingCommits := by
  simp only [State.waitingCommits, slot]

theorem waitingCommits_eq_zero (idle : ∀ i : Fin 8, (s.slot i).isLive = false) : s.waitingCommits = 0 := by
  have none (i : Fin 8) : (s.slot i).waiting = 0 := by
    have := idle i
    cases slot : s.slot i with
    | live => rw [slot] at this; cases this
    | free | closing | ended => rfl
  rw [waitingCommits_eq]
  simp only [none]

theorem Owed.elapse {k : Nat} (h : s.Owed k) (dt : Nat) : (s.elapse dt).Owed k := by
  refine h.pays 0 rfl rfl ?_ h.2.2
  have slots : (s.elapse dt).waitingCommits = s.waitingCommits := waitingCommits_of_waiting fun i => by
    rw [elapse_slot]
    cases s.slot i with
    | live sub => cases sub <;> rfl
    | free | closing | ended => rfl
  rw [waitingRequests_eq, waitingRequests_eq, slots]
  rfl

theorem Owed.completeJoin {k : Nat} (h : s.Owed k) (status : Status) : (s.completeJoin status).Owed k := by
  rw [completeJoin_eq]
  refine h.pays_outside s.sc.joinWaiting.toList.length rfl ?_ rfl ?_ h.2.2
  · cases s.sc.joinWaiting <;> simp
  · simp only [State.otherRequests, Option.toList_none, List.length_nil]
    omega

theorem Owed.completeLeaving {k : Nat} (h : s.Owed k) (status : Status) : (s.completeLeaving status).Owed k := by
  rw [completeLeaving_eq]
  refine h.pays_outside s.sc.leaveWaiting.toList.length rfl ?_ rfl ?_ h.2.2
  · cases s.sc.leaveWaiting <;> simp
  · simp only [State.otherRequests, Option.toList_none, List.length_nil]
    omega

/-- The end of a membership in which no slot is LIVE. -/
theorem Owed.finishLeave {k : Nat} (h : s.Owed k) (idle : ∀ i : Fin 8, (s.slot i).isLive = false) (status : Status) :
    (s.finishLeave status).Owed k := by
  have none : s.parted.waitingCommits = 0 := waitingCommits_eq_zero fun i => by rw [parted_slot]; rfl
  have parted : s.parted.Owed k := by
    refine h.pays 0 rfl rfl ?_ h.2.2
    rw [waitingRequests_eq, waitingRequests_eq, none, waitingCommits_eq_zero idle]
    rfl
  rw [finishLeave_eq]
  exact parted.completeLeaving status

theorem silenced_clp (s : State) : s.silenced.clp.completions = s.clp.completions ∧
    s.silenced.clp.reservations = s.clp.reservations := by
  unfold State.silenced
  rw [cutAttempt_eq, State.setMuted_eq]
  exact ⟨rfl, rfl⟩

theorem Owed.enterMuted {k : Nat} (h : s.Owed k) : s.enterMuted.Owed k := by
  refine Owed.work (s := s.silenced) (h.of_eq (silenced_clp s).1 (silenced_clp s).2 (silenced_psu s) ?_ ?_ ?_)
    (enterMuted_work s)
  · rw [silenced_hu]
  · rw [silenced_sc]
  · rw [silenced_sc]

theorem Owed.duplicateReport {k : Nat} (h : s.Owed k) : s.duplicateReport.Owed k := by
  unfold State.duplicateReport
  split
  · exact h.enterMuted.completeJoin _
  · exact h.enterMuted.completeJoin _
  · exact h.enterMuted
  · exact h.enterMuted.finishLeave (fun i => by rw [enterMuted_slot, muted_isLive]) _
  · exact h

theorem Owed.countAnnounced {k : Nat} (h : s.Owed k) : s.countAnnounced.Owed k := by
  have counted : Owed k { s with ads.announceCount := s.ads.announceCount + 1 } := h.of_eq rfl rfl rfl rfl rfl rfl
  unfold State.countAnnounced
  split
  · dsimp only
    split
    · exact Owed.completeJoin (s := { s with ads.announceCount := s.ads.announceCount + 1, sc.station := .operating })
        (counted.of_eq rfl rfl rfl rfl rfl rfl) _
    · exact counted
  · exact h

/-- A search that is over pays for its request. -/
theorem Owed.endSearch {k : Nat} (h : s.Owed k) (queued : s.psu.queue ≠ []) (done : Completion)
    (unmarked : s.psu.context.bind Context.abortTag = none) : (s.endSearch done).Owed k := by
  refine h.pays_outside 1 rfl (List.length_append ..) rfl ?_ nofun
  have := List.length_pos_iff.2 queued
  simp only [State.otherRequests, State.endSearch, State.post, unmarked, Option.bind_none, List.length_tail]
  omega

theorem Owed.abortSearch {k : Nat} (h : s.Owed k) {c : Context} (context : s.psu.context = some c) :
    (s.abortSearch c).Owed k := by
  have queued : s.psu.queue ≠ [] := h.2.2 (by rw [context]; rfl)
  unfold State.abortSearch
  rw [completeAbort_eq]
  refine h.pays_outside (1 + c.abortTag.toList.length) rfl ?_ (Nat.sub_sub ..) ?_ nofun
  · show (s.clp.completions ++ [_] ++ _).length = _
    cases c.abortTag <;> simp
  · have := List.length_pos_iff.2 queued
    simp only [State.otherRequests, State.endSearch, State.post, context, Option.bind_some, Option.bind_none,
      Option.toList_none, List.length_nil, List.length_tail]
    omega

/-- The FREE slot found is FREE. -/
theorem slot_of_freeSlot {i : Fin 8} (h : s.freeSlot = some i) : s.slot i = .free := by
  simpa using List.find?_some h

theorem Owed.createHold {k : Nat} (h : s.Owed k) {i : Fin 8} (free : s.slot i = .free) (tag : Tag)
    (priority start width : Nat) (links : List LinkKey) : (s.createHold i tag priority start width links).Owed k := by
  have held : (s.withHold i tag priority start width links).Owed k := by
    refine h.pays 0 rfl rfl ?_ h.2.2
    have sum := s.waitingCommits_setSlot i (.live (.pending none) s.nextNumber tag)
    rw [free] at sum
    have same : (s.withHold i tag priority start width links).waitingCommits = s.waitingCommits :=
      (waitingCommits_congr rfl).trans sum
    rw [waitingRequests_eq, waitingRequests_eq, same]
    rfl
  rw [createHold_eq]
  generalize s.withHold i tag priority start width links = u at held
  exact held.work (.blocks_makeDue (carries_holdPlace i (.inl rfl)) rfl nofun)

theorem Owed.searched {k : Nat} (h : s.Owed k) (step : s.Searched t) : t.Owed k := by
  have queued (flight : s.psu.context.isSome ∨ s.psu.queue ≠ []) : s.psu.queue ≠ [] := flight.elim h.2.2 id
  cases step with
  | unchanged => exact h
  | start r rest idle queue =>
    refine h.pays_outside 0 rfl rfl rfl ?_ (fun _ => queued (.inr (by rw [queue]; nofun)))
    rw [State.otherRequests, State.otherRequests, idle]
    rfl
  | step c c' context unmarked run =>
    refine h.pays_outside 0 rfl rfl rfl ?_ (fun _ => queued (.inl (by rw [context]; rfl)))
    simp only [State.otherRequests, State.setContext, context, Option.bind_some, run.abortTag]
    rfl
  | ended done flight unmarked => exact h.endSearch (queued flight) done unmarked
  | aborted c context => exact h.abortSearch context
  | held c r i done context unmarked operates free =>
    refine (h.createHold (slot_of_freeSlot free) ..).endSearch ?_ done ?_
    · rw [psu_createHold]
      exact queued (.inl (by rw [context]; rfl))
    · rw [psu_createHold, context]
      exact unmarked

/-- Each part of an event keeps the accounts. -/
theorem Owed.part {k : Nat} (h : s.Owed k) (agree : s.Agree) (part : s.Part t) : t.Owed k := by
  cases part with
  | elapse dt => exact h.elapse dt
  | block joined work => exact h.work work.work
  | announced => exact h.countAnnounced
  | left leaving => exact h.finishLeave (agree.noHold (by rw [leaving]; nofun)) _
  | duplicate => exact h.duplicateReport
  | search step => exact h.searched step
  | isolate =>
    rw [State.setIsolated_eq]
    exact h.of_eq rfl rfl rfl rfl rfl rfl
  | start p may =>
    rcases s.startAttempt_cases p with same | ⟨e, body, mark, entry, started⟩
    · rw [same]
      exact h
    · rw [started]
      exact h.of_eq rfl rfl rfl rfl rfl rfl
  | tickDebt =>
    unfold State.tickDebt
    split
    · exact h.of_eq rfl rfl rfl rfl rfl rfl
    · split
      · exact h.of_eq rfl rfl rfl rfl rfl rfl
      · exact h
  | listen =>
    unfold State.countListen
    split
    · dsimp only
      split <;> exact h.of_eq rfl rfl rfl rfl rfl rfl
    · exact h
  | _ => exact h.of_eq rfl rfl rfl rfl rfl rfl

/-! ### The accounts after a request -/

theorem pathsFlushed_length (s : State) (flight : s.psu.context.isSome → s.psu.queue ≠ []) :
    s.pathsFlushed.length = s.psu.queue.length + (s.psu.context.bind Context.abortTag).toList.length := by
  unfold State.pathsFlushed
  split
  · rename_i c r rest context queue
    simp only [context, queue, Option.bind_some, List.length_append, List.length_cons, List.length_map, List.length_nil]
    have : (c.abortTag.map (fun t => Completion.plain .abort t .ok)).toList.length = c.abortTag.toList.length := by
      cases c.abortTag <;> rfl
    omega
  · rename_i other
    have idle : s.psu.context = none := by
      by_contra some
      obtain ⟨c, context⟩ := Option.ne_none_iff_exists'.1 some
      cases queue : s.psu.queue with
      | nil => exact flight (by rw [context]; rfl) queue
      | cons r rest => exact other c r rest context queue
    rw [idle, List.length_map]
    rfl

theorem Owed.flushPaths {k : Nat} (h : s.Owed k) : s.flushPaths.Owed k := by
  rw [flushPaths_eq]
  refine h.pays_outside s.pathsFlushed.length rfl (List.length_append ..) rfl ?_ nofun
  rw [pathsFlushed_length s h.2.2]
  simp only [State.otherRequests, List.length_nil, Option.bind_none, Option.toList_none]
  omega

theorem Owed.leaves {k : Nat} (h : s.Owed k) : s.leaves.Owed k := by
  have flushed : (s.completeJoin .aborted).flushPaths.leaveHolds.Owed k :=
    ((h.completeJoin .aborted).flushPaths).work (Work.leaveHolds _).blocks_of_holds
  unfold State.leaves
  generalize (s.completeJoin .aborted).flushPaths.leaveHolds = u at flushed
  have kept {u : State} (x : Option Entry) (p : Fin 10) (h : u.Owed k) : (u.setEntry p x).Owed k :=
    h.of_eq rfl rfl rfl rfl rfl rfl
  rw [State.makeDue_eq, State.withdrawEntry_eq]
  exact kept _ _ (kept _ _ flushed)

/-- A HOLD COMMIT waits in its slot (R98). -/
theorem Owed.commitWaits {k : Nat} (h : s.Owed (k + 1)) {i : Fin 8} {sub sub' : Substate} {n : BitVec 8} {tag commit : Tag}
    (slot : s.slot i = .live sub n tag) (idle : sub.commitTag = none) (waits : sub'.commitTag = some commit) :
    (s.setSlot i (.live sub' n tag)).Owed k := by
  refine h.pays 0 rfl rfl ?_ h.2.2
  have sum := s.waitingCommits_setSlot i (.live sub' n tag)
  simp only [slot, Slot.waiting, idle, waits, Option.toList_none, Option.toList_some, List.length_nil,
    List.length_singleton] at sum
  have same : (s.setSlot i (.live sub' n tag)).otherRequests = s.otherRequests := rfl
  rw [waitingRequests_eq_add, waitingRequests_eq_add, same]
  omega

theorem slot_polled (s : State) (i : Fin 8) :
    State.slot { s with hu.slots := s.hu.slots.map Slot.polled } i = (s.slot i).polled := Vector.getElem_map ..

/-- Every owner posts a completion, or leaves its request among those that wait. -/
theorem Owed.owned (h : s.Owed 1) (agree : s.Agree) (own : s.Owned t) : t.Owed 0 := by
  cases own with
  | posted done => exact h.post done
  | status done => exact (h.post done).of_eq rfl rfl rfl rfl rfl rfl
  | identity node profile transit ports done station =>
    exact Owed.post (s := s.setIdentity node _) (h.of_eq rfl rfl rfl rfl rfl rfl) done
  | timing v done station => exact Owed.post (s := s.setTiming v) (h.of_eq rfl rfl rfl rfl rfl rfl) done
  | profile i p done => exact Owed.post (s := s.setProfile i p) (h.of_eq rfl rfl rfl rfl rfl rfl) done
  | join tag station =>
    have idle := agree.noJoin (by rw [station]; exact fun is => is.elim nofun nofun)
    rw [ownJoin_configured station]
    refine Owed.of_eq (s := (s.joined tag).makeDue solicitPlace .solicit 1) ?_ rfl rfl rfl rfl rfl rfl
    refine Owed.work ?_ (.blocks_makeDue rfl rfl nofun)
    have stored : s.ownStored.Owed 1 := Owed.work (s := s.joinAds) (h.of_eq rfl rfl rfl rfl rfl rfl) (ownStored_work s)
    refine stored.pays_outside 0 rfl rfl rfl ?_ stored.2.2
    have same : s.ownStored.sc.joinWaiting = none := by rw [ownStored_sc, idle]
    simp only [State.otherRequests, State.joined, same, Option.toList_none, Option.toList_some, List.length_nil,
      List.length_singleton]
    omega
  | leave tag station =>
    have idle := agree.noLeave (by rcases station with is | is | is <;> rw [is] <;> nofun)
    have left := h.leaves
    have same : s.leaves.sc.leaveWaiting = none := by rw [leaves_sc]; exact idle
    rw [beginLeave_eq]
    generalize s.leaves = u at left same
    refine left.pays_outside 0 rfl rfl rfl ?_ left.2.2
    simp only [State.otherRequests, State.leaveWaits, same, Option.toList_none, Option.toList_some, List.length_nil,
      List.length_singleton]
  | leaveMuted tag station =>
    have idle := agree.noLeave (by rw [station]; nofun)
    have left : s.flushPaths.leaveHolds.Owed 1 := h.flushPaths.work (Work.leaveHolds _).blocks_of_holds
    have sc : s.flushPaths.leaveHolds.sc = s.sc := (Work.leaveHolds _).blocks_of_holds.sc.trans (flushPaths_sc s)
    have slots (i : Fin 8) : (s.flushPaths.leaveHolds.slot i).isLive = false := by
      rw [leaveHolds_slot, slotLeft_isLive]
    rw [leaveMuted_eq]
    generalize s.flushPaths.leaveHolds = u at left sc slots
    refine Owed.finishLeave (s := u.noteLeave tag) ?_ slots _
    refine left.pays_outside 0 rfl rfl rfl ?_ left.2.2
    simp only [State.otherRequests, State.noteLeave, sc, idle, Option.toList_none, Option.toList_some, List.length_nil,
      List.length_singleton]
  | port p r done =>
    refine Owed.post ?_ done
    rcases changePort_work s p r with same | ⟨work, -⟩
    · rw [same]
      exact h
    · exact Owed.work (s := s.setPort p r) (h.of_eq rfl rfl rfl rfl rfl rfl) work
  | path r station =>
    refine h.pays_outside 0 rfl rfl rfl ?_ (fun _ => by simp)
    simp only [State.otherRequests, List.length_append, List.length_singleton]
    omega
  | mark c tag context unmarked =>
    refine h.pays_outside 0 rfl rfl rfl ?_ (fun _ => h.2.2 (by rw [context]; rfl))
    simp only [State.otherRequests, context, unmarked, Option.bind_some, Option.toList_none, Option.toList_some,
      List.length_nil, List.length_singleton]
    omega
  | unqueue queue done done' length flight =>
    refine h.pays_outside 2 rfl (by simp [State.post]) (Nat.sub_sub ..) ?_ flight
    simp only [State.otherRequests, State.post]
    omega
  | commit i n t tag sub sub' slot idle waits => exact h.commitWaits slot idle waits
  | commitDue i n t tag slot =>
    exact (h.commitWaits slot rfl rfl).work (.blocks_makeDue (carries_holdPlace i (by tauto)) rfl nofun)
  | release i sub n t done slot => exact (h.work (Work.releaseLive s i sub n t).blocks_of_holds).post done
  | poll done =>
    refine Owed.post ?_ done
    refine h.pays 0 rfl rfl ?_ h.2.2
    have slots : waitingCommits { s with hu.slots := s.hu.slots.map Slot.polled } = s.waitingCommits :=
      waitingCommits_of_waiting fun i => by
        rw [slot_polled]
        cases s.slot i <;> rfl
    rw [waitingRequests_eq_add, waitingRequests_eq_add, slots]
    rfl
  | block k m done =>
    refine Owed.post ?_ done
    unfold State.setBlock
    split
    · exact h
    · exact h.of_eq rfl rfl rfl rfl rfl rfl

theorem Owed.of_inner {k : Nat} (same : t.inner = s.inner) (h : s.Owed k) : t.Owed k := by
  have as {α : Type} (f : State → α) : f t.inner = f s.inner := congrArg f same
  exact h.of_eq (as (fun x => x.clp.completions)) (as (fun x => x.clp.reservations)) (as (fun x => x.psu))
    (as (fun x => x.hu.slots)) (as (fun x => x.sc.joinWaiting)) (as (fun x => x.sc.leaveWaiting))

theorem Agree.accepted (h : s.Agree) : s.accepted.Agree :=
  State.Agree.of_inner (t := s.accepted) (by rfl) (h.of_clp s.accepted.clp)

/-- A request is accepted where a place is left for its completion (R160). -/
theorem Owed.accepted (h : s.Owed 0) (takes : s.takes) : s.accepted.Owed 1 := by
  obtain ⟨owed, -, flight⟩ := h
  obtain ⟨-, room⟩ := takes
  refine ⟨?_, ?_, flight⟩
  · show s.clp.reservations + 1 = s.waitingRequests + 1
    omega
  · show s.clp.completions.length + (s.clp.reservations + 1) ≤ 16
    omega

theorem afterFetch_length (s : State) (n : Nat) : (s.afterFetch n).length ≤ s.clp.completions.length := by
  unfold State.afterFetch
  split
  · exact Nat.zero_le _
  · rename_i queue
    rw [queue]
    split
    · exact Nat.le_succ _
    · exact Nat.le_refl _

end State

open State

/-- Settles O10, with the agreement of the blocks beside the accounts. -/
theorem everyStepKeepsAccounts : Obligations.EveryStepKeepsAccounts := by
  unfold Obligations.EveryStepKeepsAccounts
  intro s t agree accounts ran
  refine (step_keeps (P := fun s => s.Agree ∧ s.Owed 0) ?inner ?reset ?fetch ?request ?event ?idle ⟨agree, accounts⟩ ran).2
  case inner => exact fun same h => ⟨h.1.of_inner same, h.2.of_inner same⟩
  case reset => exact ⟨reset_agree, reset_accounts⟩
  case fetch =>
    rintro s n ⟨agree, owed, room, flight⟩
    refine ⟨agree.of_clp _, owed, ?_, flight⟩
    exact (Nat.add_le_add_right (afterFetch_length s n) _).trans room
  case request =>
    rintro c own s owner takes ⟨agree, owed⟩
    have owned := owned_of_requestOwner owner s.accepted
    exact ⟨agree.accepted.owned owned, (owed.accepted takes).owned agree.accepted owned⟩
  case event =>
    exact fun worked h => event_keeps (P := fun s => s.Agree ∧ s.Owed 0) And.left
      (fun part h => ⟨h.1.part part, h.2.part h.1 part⟩) worked h
  case idle => exact fun h => ⟨h.1.elapse 1, h.2.elapse 1⟩

end Sys2Proof.Machine

namespace Sys2Proof.Machine

namespace State

variable {s t : State}

/-! The due list keeps its form (R3, R5, R6, R14). -/

/-- Work that leaves the due list, and the attempt or none. -/
theorem DueOk.of_eq (h : s.DueOk) (due : t.lac.due = s.lac.due)
    (attempt : t.lac.attempt = s.lac.attempt ∨ t.lac.attempt = none) : t.DueOk := by
  refine ⟨fun p e => by rw [entry_of_due due]; exact h.entries p e, fun a is => ?_⟩
  rcases attempt with same | none
  · rw [same] at is
    rw [entry_of_due due]
    exact h.attempt a is
  · rw [none] at is
    cases is

/-- A silent line has the form. -/
theorem dueOk_of_silent (h : s.silentLine) : s.DueOk := by
  obtain ⟨free, entries⟩ := h
  constructor
  · intro p e is
    rw [entries] at is
    cases is
  · intro a is
    rw [free] at is
    cases is

/-- A place off the line takes an entry that it may hold. -/
theorem DueOk.setFree (h : s.DueOk) (free : s.lac.attempt = none) {p : Fin 10} {x : Option Entry}
    (fits : ∀ e, x = some e → e.fits p) : (s.setEntry p x).DueOk :=
  h.setEntry fits fun on => by
    unfold State.onLine at on
    rw [free] at on
    cases on

theorem Entry.fits.backOff {e : Entry} {p : Fin 10} (h : e.fits p) (few : e.attempts < 7) (backoff : Option Nat) :
    ({ e with attempts := e.attempts + 1, backoffEnd := backoff } : Entry).fits p := by
  obtain ⟨kind, cls, -, follow, withdrawn⟩ := h
  exact ⟨kind, cls, few, follow, withdrawn⟩

theorem countAnnounced_lac (s : State) : s.countAnnounced.lac = s.lac := by
  unfold State.countAnnounced
  split
  · dsimp only
    split
    · unfold State.enterOperating
      rw [completeJoin_lac]
    · rfl
  · rfl

theorem countListen_lac (s : State) : s.countListen.lac = s.lac := by
  unfold State.countListen
  split
  · dsimp only
    split <;> rfl
  · rfl

theorem tickDebt_lac (s : State) : s.tickDebt.lac = s.lac := by
  unfold State.tickDebt
  split
  · rfl
  · split <;> rfl

theorem silentLine_finishLeave (free : s.lac.attempt = none) (status : Status) : (s.finishLeave status).silentLine := by
  rw [finishLeave_eq, completeLeaving_eq]
  exact ⟨free, parted_entry s⟩

theorem silentLine_enterMuted (s : State) : s.enterMuted.silentLine := ⟨enterMuted_attempt s, enterMuted_entry s⟩

theorem silentLine_completeJoin (h : s.silentLine) (status : Status) : (s.completeJoin status).silentLine :=
  silentLine_of_eq (by rw [completeJoin_lac]) (by rw [completeJoin_lac]) h

theorem DueOk.duplicateReport (h : s.DueOk) : s.duplicateReport.DueOk := by
  unfold State.duplicateReport
  split
  · exact dueOk_of_silent (silentLine_completeJoin (silentLine_enterMuted s) _)
  · exact dueOk_of_silent (silentLine_completeJoin (silentLine_enterMuted s) _)
  · exact dueOk_of_silent (silentLine_enterMuted s)
  · exact dueOk_of_silent (silentLine_finishLeave (enterMuted_attempt s) _)
  · exact h

theorem lac_completeAbort (s : State) (tag : Option Tag) : (s.completeAbort tag).lac = s.lac := by
  rw [completeAbort_eq]

theorem DueOk.createHold (h : s.DueOk) (i : Fin 8) (tag : Tag) (priority start width : Nat) (links : List LinkKey) :
    (s.createHold i tag priority start width links).DueOk := by
  rw [createHold_eq]
  exact DueOk.makeDue (s := s.withHold i tag priority start width links) (h.of_eq rfl (.inl rfl))
    (carries_holdPlace i (.inl rfl)) rfl

theorem DueOk.searched (h : s.DueOk) (step : s.Searched t) : t.DueOk := by
  cases step with
  | unchanged => exact h
  | start | step | ended => exact h.of_eq rfl (.inl rfl)
  | aborted c =>
    unfold State.abortSearch
    refine h.of_eq ?_ (.inl ?_) <;> rw [lac_completeAbort] <;> rfl
  | held c r i done =>
    have created := h.createHold i c.request.tag c.request.priority r.window c.request.width (r.path.map Prod.fst)
    generalize s.createHold i c.request.tag c.request.priority r.window c.request.width (r.path.map Prod.fst) = u
      at created
    exact created.of_eq rfl (.inl rfl)

/-- Each part of an event keeps the form of the due list. -/
theorem DueOk.part (h : s.DueOk) (part : s.Part t) : t.DueOk := by
  cases part with
  | start p may =>
    rcases s.startAttempt_cases p with same | ⟨e, body, mark, entry, started⟩
    · rw [same]
      exact h
    · rw [started]
      refine ⟨h.entries, ?_⟩
      rintro a ⟨⟩
      exact ⟨e, entry, rfl⟩
  | close => exact h.of_eq rfl (.inr rfl)
  | followOn p e free entry =>
    refine h.setFree free fun x is => ?_
    obtain ⟨f, follow, rfl⟩ := Option.map_eq_some_iff.1 is
    obtain ⟨kind, cls⟩ := (h.entries p e entry).followOn follow
    exact newEntry_fits kind cls
  | backOff p e free entry few =>
    refine DueOk.setFree (s := { s with lac.lfsr := advanceLfsr s.lac.lfsr }) (h.of_eq rfl (.inl rfl)) free ?_
    rintro x ⟨⟩
    exact Entry.fits.backOff (h.entries p e entry) few _
  | dropEntry p free => exact h.setFree free nofun
  | block joined work => exact work.work.orderly.dueOk h
  | announced =>
    exact h.of_eq (by rw [countAnnounced_lac]) (.inl (by rw [countAnnounced_lac]))
  | left leaving free status => exact dueOk_of_silent (silentLine_finishLeave free status)
  | duplicate => exact h.duplicateReport
  | search step => exact h.searched step
  | isolate =>
    rw [State.setIsolated_eq]
    exact h.of_eq rfl (.inl rfl)
  | tickDebt => exact h.of_eq (by rw [tickDebt_lac]) (.inl (by rw [tickDebt_lac]))
  | listen => exact h.of_eq (by rw [countListen_lac]) (.inl (by rw [countListen_lac]))
  | _ => exact h.of_eq rfl (.inl rfl)

theorem DueOk.leaves (h : s.DueOk) : s.leaves.DueOk := by
  have flushed : (s.completeJoin .aborted).flushPaths.DueOk :=
    h.of_eq (by rw [flushPaths_lac, completeJoin_lac]) (.inl (by rw [flushPaths_lac, completeJoin_lac]))
  have settled := (Work.leaveHolds (s.completeJoin .aborted).flushPaths).orderly.dueOk flushed
  exact ((Orderly.withdrawEntry (p := solicitPlace)).dueOk settled).makeDue rfl rfl

/-- Every owner keeps the form of the due list. -/
theorem DueOk.owned (h : s.DueOk) (agree : s.Agree) (own : s.Owned t) : t.DueOk := by
  cases own with
  | join tag station =>
    rw [ownJoin_configured station]
    have stored : s.ownStored.DueOk := (ownStored_work s).orderly.dueOk (h.of_eq rfl (.inl rfl))
    have joined : (s.joined tag).DueOk := stored.of_eq rfl (.inl rfl)
    exact DueOk.of_eq (DueOk.makeDue joined rfl rfl) rfl (.inl rfl)
  | leave tag station =>
    have left := h.leaves
    rw [beginLeave_eq]
    generalize s.leaves = u at left
    exact left.of_eq rfl (.inl rfl)
  | leaveMuted tag station =>
    rw [leaveMuted_eq]
    refine dueOk_of_silent (silentLine_finishLeave ?_ _)
    rw [noteLeave_attempt, (Work.leaveHolds _).blocks_of_holds.attempt, flushPaths_lac]
    exact (agree.silent station).1
  | port p r done =>
    have changed : (s.changePort p r).DueOk := by
      rcases changePort_work s p r with same | ⟨work, -⟩
      · rw [same]
        exact h
      · exact work.orderly.dueOk (h.of_eq rfl (.inl rfl))
    exact changed.of_eq rfl (.inl rfl)
  | commitDue i n t tag slot =>
    exact DueOk.makeDue (s := s.setSlot i (.live (.committing tag) n t)) (h.of_eq rfl (.inl rfl))
      (carries_holdPlace i (by tauto)) rfl
  | release i sub n t done slot =>
    exact DueOk.of_eq ((Work.releaseLive s i sub n t).orderly.dueOk h) rfl (.inl rfl)
  | block k m done =>
    have written : (s.setBlock k m).DueOk := by
      unfold State.setBlock
      split
      · exact h
      · exact h.of_eq rfl (.inl rfl)
    exact written.of_eq rfl (.inl rfl)
  | _ => exact h.of_eq rfl (.inl rfl)

theorem DueOk.of_inner (same : t.inner = s.inner) (h : s.DueOk) : t.DueOk := by
  have as {α : Type} (f : State → α) : f t.inner = f s.inner := congrArg f same
  exact h.of_eq (as (fun x => x.lac.due)) (.inl (as (fun x => x.lac.attempt)))

end State

open State

/-- Settles O44, with the agreement of the blocks beside the form of the due list. -/
theorem everyStepKeepsDueList : Obligations.EveryStepKeepsDueList := by
  unfold Obligations.EveryStepKeepsDueList
  intro s t agree ok ran
  refine (step_keeps (P := fun s => s.Agree ∧ s.DueOk) ?inner ?reset ?fetch ?request ?event ?idle ⟨agree, ok⟩ ran).2
  case inner => exact fun same h => ⟨h.1.of_inner same, h.2.of_inner same⟩
  case reset => exact ⟨reset_agree, reset_dueOk⟩
  case fetch => exact fun n h => ⟨h.1.of_clp _, h.2.of_eq rfl (.inl rfl)⟩
  case request =>
    rintro c own s owner takes ⟨agree, ok⟩
    have owned := owned_of_requestOwner owner s.accepted
    exact ⟨agree.accepted.owned owned, DueOk.owned (s := s.accepted) (ok.of_eq rfl (.inl rfl)) agree.accepted owned⟩
  case event =>
    exact fun worked h => event_keeps (P := fun s => s.Agree ∧ s.DueOk) And.left
      (fun part h => ⟨h.1.part part, h.2.part part⟩) worked h
  case idle => exact fun h => ⟨h.1.elapse 1, h.2.of_eq rfl (.inl rfl)⟩

end Sys2Proof.Machine

namespace Sys2Proof.Machine

namespace State

variable {s t : State}

/-! The registers keep their ranges (R7, R42, R55, R73, R171, R172, R175). -/

/-- The registers whose ranges are kept. -/
def registers (s : State) : Sc × Pt × Pf × Int × Nat × Nat × Nat :=
  ({ s.sc with muted := false, riTimer := none, joinWaiting := none, leaveWaiting := none }, s.pt, s.pf, s.ads.debt,
    s.ads.freshCount, s.ads.announceCount, s.lac.budget)

theorem Ranges.of_eq (h : s.Ranges) (same : t.registers = s.registers) : t.Ranges := by
  simp only [State.registers, Prod.mk.injEq, Sc.mk.injEq] at same
  obtain ⟨⟨station, identity, timing, -, -, listen, -, -⟩, pt, pf, debt, fresh, announced, budget⟩ := same
  constructor
  case identity => rw [identity]; exact h.identity
  case timing => rw [timing]; exact h.timing
  case listen => rw [listen]; exact h.listen
  case listening => rw [station, listen, State.timing, timing]; exact h.listening
  case ports => rw [pt]; exact h.ports
  case profiles => rw [pf]; exact h.profiles
  case debt => rw [debt]; exact h.debt
  case fresh => rw [fresh]; exact h.fresh
  case announced => rw [announced]; exact h.announced
  case announcing => rw [station, announced]; exact h.announcing
  case unannounced => rw [station, announced]; exact h.unannounced
  case budget => rw [budget]; exact h.budget

theorem Work.registers (work : Work outsideBlocks s t) : t.registers = s.registers := by
  simp only [State.registers, work.sc, work.pt, work.pf, work.debt, work.freshCount, work.announceCount, work.budget]

theorem Ranges.work (h : s.Ranges) (work : Work outsideBlocks s t) : t.Ranges := h.of_eq work.registers

/-- A smaller budget stays in range. -/
theorem Ranges.charge (h : s.Ranges) {budget : Nat} (less : budget ≤ s.lac.budget) (sending : Option Transmission)
    (attempt : Option Attempt) :
    Ranges { s with lac.budget := budget, lac.sending := sending, lac.attempt := attempt } :=
  ⟨h.identity, h.timing, h.listen, h.listening, h.ports, h.profiles, h.debt, h.fresh, h.announced, h.announcing,
    h.unannounced, less.trans h.budget⟩

/-- A debt of 0 is in range. -/
theorem debt_zero_inRange : (-8 : Int) ≤ 0 ∧ (0 : Int) ≤ 8 := by decide

theorem ranges_joinWaiting (h : s.Ranges) (status : Status) : (s.completeJoin status).Ranges := by
  rw [completeJoin_eq]
  exact h.of_eq rfl

theorem Ranges.finishLeave (h : s.Ranges) (status : Status) : (s.finishLeave status).Ranges := by
  rw [finishLeave_eq, completeLeaving_eq]
  exact ⟨h.identity, h.timing, Nat.zero_le _, nofun, h.ports, h.profiles, debt_zero_inRange, Nat.zero_le _, Nat.zero_le _,
    nofun, nofun, Nat.zero_le _⟩

theorem Ranges.silenced (h : s.Ranges) : s.silenced.Ranges := by
  have cut : s.cutAttempt.Ranges := by
    rw [cutAttempt_eq]
    refine h.charge ?_ _ _
    split
    · exact Nat.le_refl _
    · exact Nat.sub_le _ _
  have muted {u : State} (h : u.Ranges) : Ranges { u with sc.station := .muted } :=
    ⟨h.identity, h.timing, h.listen, nofun, h.ports, h.profiles, h.debt, h.fresh, h.announced, nofun, nofun, h.budget⟩
  unfold State.silenced
  rw [State.setMuted_eq]
  rw [cutAttempt_eq] at cut ⊢
  exact (muted cut).of_eq rfl

theorem Ranges.duplicateReport (h : s.Ranges) : s.duplicateReport.Ranges := by
  have muted : s.enterMuted.Ranges := h.silenced.work (enterMuted_work s)
  unfold State.duplicateReport
  split
  · exact ranges_joinWaiting muted _
  · exact ranges_joinWaiting muted _
  · exact muted
  · exact muted.finishLeave _
  · exact h

theorem Ranges.countAnnounced (h : s.Ranges) : s.countAnnounced.Ranges := by
  unfold State.countAnnounced
  split
  · rename_i station
    have few := h.announcing station
    dsimp only
    split
    · have operates : Ranges { s with ads.announceCount := s.ads.announceCount + 1, sc.station := .operating } :=
        ⟨h.identity, h.timing, h.listen, nofun, h.ports, h.profiles, h.debt, h.fresh, few, nofun, nofun, h.budget⟩
      exact ranges_joinWaiting operates _
    · rename_i more
      have fewer : s.ads.announceCount + 1 < 2 := Nat.lt_of_le_of_ne few more
      have early : s.sc.station ≠ .listening := by rw [station]; nofun
      exact ⟨h.identity, h.timing, h.listen, h.listening, h.ports, h.profiles, h.debt, h.fresh, few, fun _ => fewer,
        fun is => absurd is early, h.budget⟩
  · exact h

/-- The listen period in range, where one is counted. -/
theorem Ranges.joinListen_le (h : s.Ranges) : s.timing.joinListen ≤ 16 := by
  unfold State.timing
  cases timing : s.sc.timing with
  | none => exact Nat.zero_le _
  | some v => exact (h.timing v timing).2.1.2

theorem Ranges.countListen (h : s.Ranges) : s.countListen.Ranges := by
  unfold State.countListen
  split
  · rename_i station
    have within := h.listening station
    have most := h.joinListen_le
    have counted : s.sc.listen + 1 ≤ 16 := by omega
    dsimp only
    split
    · refine ⟨h.identity, h.timing, counted, nofun, h.ports, h.profiles, h.debt, h.fresh, h.announced, fun _ => ?_, nofun,
        h.budget⟩
      show s.ads.announceCount < 2
      rw [h.unannounced station]
      decide
    · rename_i more
      have still : s.sc.listen + 1 < s.timing.joinListen := Nat.lt_of_le_of_ne within more
      exact ⟨h.identity, h.timing, counted, fun _ => still, h.ports, h.profiles, h.debt, h.fresh, h.announced, h.announcing,
        h.unannounced, h.budget⟩
  · exact h

/-- The full budget in range. -/
theorem Ranges.fullBudget_le (h : s.Ranges) : s.fullBudget ≤ 1048560 := by
  unfold State.fullBudget State.timing
  cases timing : s.sc.timing with
  | none => exact Nat.zero_le _
  | some v =>
    have most := (h.timing v timing).2.2.2.2.2.2.1.2
    exact Nat.mul_le_mul_right 16 most

theorem Ranges.withDebt (h : s.Ranges) {debt : Int} (lo : -8 ≤ debt) (hi : debt ≤ 8) (sequence : BitVec 16) (wait : Bool) :
    Ranges { s with ads.debt := debt, ads.sequence := sequence, ads.postDropWait := wait } :=
  ⟨h.identity, h.timing, h.listen, h.listening, h.ports, h.profiles, ⟨lo, hi⟩, h.fresh, h.announced, h.announcing,
    h.unannounced, h.budget⟩

theorem Ranges.tickDebt (h : s.Ranges) : s.tickDebt.Ranges := by
  obtain ⟨lo, hi⟩ := h.debt
  unfold State.tickDebt
  split
  · exact h.withDebt (by omega) (by omega) s.ads.sequence s.ads.postDropWait
  · split
    · exact h.withDebt (by omega) (by omega) s.ads.sequence false
    · exact h

theorem Ranges.searched (h : s.Ranges) (step : s.Searched t) : t.Ranges := by
  cases step with
  | unchanged => exact h
  | start | step | ended => exact h.of_eq rfl
  | aborted c =>
    unfold State.abortSearch
    rw [completeAbort_eq]
    exact h.of_eq rfl
  | held c r i done =>
    rw [createHold_eq, State.makeDue_eq]
    exact h.of_eq rfl

/-- Each part of an event keeps the ranges. -/
theorem Ranges.part (h : s.Ranges) (part : s.Part t) : t.Ranges := by
  cases part with
  | start p may =>
    rcases s.startAttempt_cases p with same | ⟨e, body, mark, entry, started⟩
    · rw [same]
      exact h
    · rw [started]
      exact h.of_eq rfl
  | close a bits => exact h.charge (Nat.sub_le _ _) s.lac.sending none
  | block joined work => exact h.work work.work
  | sequence =>
    obtain ⟨lo, hi⟩ := h.debt
    exact h.withDebt (by omega) (by omega) (s.ads.sequence + 1) s.ads.postDropWait
  | fresh =>
    exact ⟨h.identity, h.timing, h.listen, h.listening, h.ports, h.profiles, h.debt, (Nat.sub_le _ _).trans h.fresh,
      h.announced, h.announcing, h.unannounced, h.budget⟩
  | announced => exact h.countAnnounced
  | left leaving free status => exact h.finishLeave status
  | duplicate => exact h.duplicateReport
  | reload =>
    exact ⟨h.identity, h.timing, h.listen, h.listening, h.ports, h.profiles, h.debt, h.fresh, h.announced, h.announcing,
      h.unannounced, h.fullBudget_le⟩
  | tickDebt => exact h.tickDebt
  | listen => exact h.countListen
  | search step => exact h.searched step
  | isolate =>
    rw [State.setIsolated_eq]
    exact h.of_eq rfl
  | _ => exact h.of_eq rfl

theorem readIdentity_inRange {node : BitVec 16} (good : badNode node.toNat = false) (profile transit ports : Byte) :
    (readIdentity node profile transit ports).inRange := by
  have := node.isLt
  simp only [badNode, Bool.or_eq_false_iff, beq_eq_false_iff_ne] at good
  simp only [Identity.inRange, readIdentity, clampTo]
  omega

theorem registers_leaves (s : State) : s.leaves.registers = s.registers := by
  have settled : (s.completeJoin .aborted).flushPaths.leaveHolds.registers = s.registers := by
    rw [(Work.leaveHolds _).blocks_of_holds.registers, flushPaths_eq, completeJoin_eq]
    rfl
  unfold State.leaves
  generalize (s.completeJoin .aborted).flushPaths.leaveHolds = u at settled
  rw [State.makeDue_eq, State.withdrawEntry_eq]
  exact settled

theorem registers_leaveMuted (s : State) (tag : Tag) : (s.flushPaths.leaveHolds.noteLeave tag).registers = s.registers := by
  have settled : s.flushPaths.leaveHolds.registers = s.registers := by
    rw [(Work.leaveHolds _).blocks_of_holds.registers, flushPaths_eq]
    rfl
  generalize s.flushPaths.leaveHolds = u at settled
  exact settled

/-- The record written stays in range, and the others stand. -/
theorem forall_setIfInBounds {α : Type} {n : Nat} {P : α → Prop} {v : Vector α n} (h : ∀ i : Fin n, P v[i]) (k : Nat)
    {x : α} (new : P x) : ∀ i : Fin n, P (v.setIfInBounds k x)[i] := by
  intro i
  show P ((v.setIfInBounds k x)[i.val])
  rw [Vector.getElem_setIfInBounds]
  split
  · exact new
  · exact h i

theorem Ranges.port (h : s.Ranges) {p : Nat} (fitted : p < 16) : (s.port p).inRange := by
  have is : s.port p = s.pt.ports[p] := by simp [State.port, Vector.getD, fitted]
  rw [is]
  exact h.ports ⟨p, fitted⟩

theorem Ranges.join (h : s.Ranges) (agree : s.Agree) (station : s.sc.station = .configured) (tag : Tag) :
    (s.ownJoin tag).Ranges := by
  have timed : s.sc.timing ≠ none := fun none => by
    have is := agree.timing.1 none
    rw [station] at is
    exact is.elim nofun nofun
  obtain ⟨v, timing⟩ := Option.ne_none_iff_exists'.1 timed
  have listens : 0 < s.timing.joinListen := by
    rw [State.timing, timing]
    exact (h.timing v timing).2.1.1
  have stored : s.ownStored.registers = s.joinAds.registers := (ownStored_work s).registers
  have listening {u : State} (h : u.Ranges) (listens : 0 < u.timing.joinListen) (count : u.ads.announceCount = 0)
      (listen : u.sc.listen = 0) : Ranges { u with sc.station := .listening } :=
    ⟨h.identity, h.timing, h.listen, fun _ => listen.trans_lt listens, h.ports, h.profiles, h.debt, h.fresh, h.announced,
      nofun, fun _ => count, h.budget⟩
  have begun : s.joinAds.Ranges :=
    ⟨h.identity, h.timing, h.listen, h.listening, h.ports, h.profiles, debt_zero_inRange, Nat.le_refl 2, Nat.zero_le _,
      fun _ => Nat.zero_lt_two, fun _ => rfl, h.budget⟩
  have joined : (s.joined tag).Ranges := by
    have own := begun.work (ownStored_work s)
    have unlistened : (s.joined tag).sc.station ≠ .listening := by
      rw [joined_sc, station]
      nofun
    exact ⟨own.identity, own.timing, Nat.zero_le _, fun is => absurd is unlistened, own.ports, own.profiles, own.debt,
      own.fresh, own.announced, own.announcing, own.unannounced, own.fullBudget_le⟩
  rw [ownJoin_configured station]
  refine listening (joined.work (.blocks_makeDue rfl rfl nofun)) ?_ ?_ ?_
  · rw [State.timing, sc_makeDue, joined_sc]
    exact listens
  · have none : (s.joined tag).ads.announceCount = 0 := (ownStored_work s).announceCount
    rw [(Work.blocks_makeDue (p := solicitPlace) (k := .solicit) (c := 1) rfl rfl nofun).announceCount, none]
  · rw [sc_makeDue, joined_sc]

/-- Every owner keeps the ranges. -/
theorem Ranges.owned (h : s.Ranges) (agree : s.Agree) (own : s.Owned t) : t.Ranges := by
  cases own with
  | identity node profile transit ports done station good =>
    refine Ranges.of_eq (s := s.setIdentity node _) ⟨?_, h.timing, h.listen, nofun, h.ports, h.profiles, h.debt, h.fresh,
      h.announced, nofun, nofun, h.budget⟩ rfl
    rintro v ⟨⟩
    exact readIdentity_inRange good ..
  | timing v done station inRange =>
    refine Ranges.of_eq (s := s.setTiming v) ⟨h.identity, ?_, h.listen, nofun, h.ports, h.profiles, h.debt, h.fresh,
      h.announced, nofun, nofun, h.budget⟩ rfl
    rintro v ⟨⟩
    exact inRange
  | profile i p done inRange =>
    exact Ranges.of_eq (s := s.setProfile i p) ⟨h.identity, h.timing, h.listen, h.listening, h.ports,
      forall_setIfInBounds (P := Profile.inRange) h.profiles i (inRange h.profiles), h.debt, h.fresh, h.announced, h.announcing, h.unannounced,
      h.budget⟩ rfl
  | join tag station => exact h.join agree station tag
  | leave tag station =>
    have left := h.of_eq (registers_leaves s)
    rw [beginLeave_eq]
    generalize s.leaves = u at left
    exact ⟨left.identity, left.timing, left.listen, nofun, left.ports, left.profiles, left.debt, left.fresh,
      left.announced, nofun, nofun, left.budget⟩
  | leaveMuted tag station =>
    rw [leaveMuted_eq]
    exact (h.of_eq (registers_leaveMuted s tag)).finishLeave _
  | port p r done fitted configured inRange =>
    refine Ranges.of_eq (s := s.changePort p r) ?_ rfl
    rcases changePort_work s p r with same | ⟨work, -⟩
    · rw [same]
      exact h
    · refine Ranges.work (s := s.setPort p r) ⟨h.identity, h.timing, h.listen, h.listening, ?_, h.profiles, h.debt,
        h.fresh, h.announced, h.announcing, h.unannounced, h.budget⟩ work
      exact forall_setIfInBounds (P := PortRecord.inRange) h.ports p (inRange (h.port fitted))
  | commitDue i n t tag slot =>
    exact Ranges.work (s := s.setSlot i (.live (.committing tag) n t)) (h.of_eq rfl)
      (.blocks_makeDue (carries_holdPlace i (by tauto)) rfl nofun)
  | release i sub n t done slot => exact Ranges.of_eq (h.work (Work.releaseLive s i sub n t).blocks_of_holds) rfl
  | block k m done =>
    refine Ranges.of_eq (s := s.setBlock k m) ?_ rfl
    unfold State.setBlock
    split
    · exact h
    · exact h.of_eq rfl
  | _ => exact h.of_eq rfl

theorem Ranges.of_inner (same : t.inner = s.inner) (h : s.Ranges) : t.Ranges :=
  h.of_eq (show t.inner.registers = s.inner.registers by rw [same])

end State

open State

/-- Settles O21, with the agreement of the blocks beside the ranges. -/
theorem everyStepKeepsRanges : Obligations.EveryStepKeepsRanges := by
  unfold Obligations.EveryStepKeepsRanges
  intro s t agree ranges ran
  refine (step_keeps (P := fun s => s.Agree ∧ s.Ranges) ?inner ?reset ?fetch ?request ?event ?idle ⟨agree, ranges⟩ ran).2
  case inner => exact fun same h => ⟨h.1.of_inner same, h.2.of_inner same⟩
  case reset => exact ⟨reset_agree, reset_ranges⟩
  case fetch => exact fun n h => ⟨h.1.of_clp _, h.2.of_eq rfl⟩
  case request =>
    rintro c own s owner takes ⟨agree, ranges⟩
    have owned := owned_of_requestOwner owner s.accepted
    exact ⟨agree.accepted.owned owned, Ranges.owned (s := s.accepted) (ranges.of_eq rfl) agree.accepted owned⟩
  case event =>
    exact fun worked h => event_keeps (P := fun s => s.Agree ∧ s.Ranges) And.left
      (fun part h => ⟨h.1.part part, h.2.part part⟩) worked h
  case idle => exact fun h => ⟨h.1.elapse 1, h.2.of_eq rfl⟩

end Sys2Proof.Machine

namespace Sys2Proof.Machine

/-! ### The numbers that bytes carry -/

theorem foldl_bytes_lt (l : List Byte) {a k : Nat} (h : a < 256 ^ k) :
    l.foldl (fun a b => a * 256 + b.toNat) a < 256 ^ (k + l.length) := by
  induction l generalizing a k with
  | nil => exact h
  | cons b l ih =>
    have := b.isLt
    have next : a * 256 + b.toNat < 256 ^ (k + 1) := by
      rw [Nat.pow_succ]
      omega
    rw [List.foldl_cons, List.length_cons, Nat.add_comm l.length 1, ← Nat.add_assoc]
    exact ih next

/-- A field of `k` bytes is below 256 to the power `k`. -/
theorem field_lt (l : List Byte) (i k : Nat) : field l i k < 256 ^ k := by
  have short : ((l.drop i).take k).length ≤ k := List.length_take_le ..
  have := foldl_bytes_lt ((l.drop i).take k) (a := 0) (k := 0) (by decide)
  rw [Nat.zero_add] at this
  exact this.trans_le (Nat.pow_le_pow_right (by decide) short)

/-- The values of a link entry are those of their fields (R186). -/
def LinkEntry.widths (e : LinkEntry) : Prop :=
  e.cost ≤ 65535 ∧ e.noise ≤ 65535 ∧ -32768 ≤ e.dispersion ∧ e.dispersion ≤ 32767

theorem readLinkEntries_widths {n : Nat} {l : List Byte} : ∀ e ∈ readLinkEntries n l, e.widths := by
  induction n generalizing l with
  | zero => nofun
  | succ n ih =>
    intro e mem
    rcases List.mem_cons.1 mem with rfl | mem
    · have cost := field_lt (l.take 18) 4 2
      have noise := field_lt (l.take 18) 6 2
      have lo := BitVec.le_toInt (BitVec.ofNat 16 (field (l.take 18) 8 2))
      have hi := BitVec.toInt_lt (x := BitVec.ofNat 16 (field (l.take 18) 8 2))
      refine ⟨Nat.le_of_lt_succ cost, Nat.le_of_lt_succ noise, ?_, ?_⟩ <;>
        simp only [readLinkEntry, signedField] <;> omega
    · exact ih e mem

theorem readAdvert_eq_some {l : List Byte} {a : Advert} (h : readAdvert l = some a) :
    a.profile ≤ 15 ∧ a.entries.length ≤ 16 ∧ ∀ e ∈ a.entries, e.widths := by
  have length (n : Nat) (l : List Byte) : (readLinkEntries n l).length = n := by
    induction n generalizing l with
    | zero => rfl
    | succ n ih => rw [readLinkEntries, List.length_cons, ih]
  unfold readAdvert at h
  dsimp only at h
  split at h
  · rename_i good
    cases h
    exact ⟨good.2.2.2, (length _ _).trans_le good.2.1, readLinkEntries_widths⟩
  · cases h

/-! ### Which entries are valid (R30) -/

/-- The test of R30 on one entry. -/
def LinkEntry.sound (e : LinkEntry) : Prop := e.fromPort ≤ 15 ∧ e.toPort ≤ 15 ∧ validNode e.toNode = true

theorem mem_validEntriesFrom {seen : List Nat} {es : List LinkEntry} {e : LinkEntry} : e ∈ validEntriesFrom seen es ↔
    ∃ before x after, es = before ++ x :: after ∧ x.fromPort ∉ seen ∧ (∀ y ∈ before, y.fromPort ≠ x.fromPort) ∧
      x.sound ∧ e = { x with cost := max 1 x.cost } := by
  induction es generalizing seen with
  | nil => simp [validEntriesFrom]
  | cons y es ih =>
    have rest : e ∈ validEntriesFrom (y.fromPort :: seen) es ↔
        ∃ before x after, es = before ++ x :: after ∧ x.fromPort ∉ seen ∧
          (∀ z ∈ y :: before, z.fromPort ≠ x.fromPort) ∧ x.sound ∧ e = { x with cost := max 1 x.cost } := by
      rw [ih]
      constructor <;> rintro ⟨before, x, after, split, fresh, first, sound, same⟩
      · rw [List.mem_cons, not_or] at fresh
        exact ⟨before, x, after, split, fresh.2, List.forall_mem_cons.2 ⟨Ne.symm fresh.1, first⟩, sound, same⟩
      · obtain ⟨ne, first⟩ := List.forall_mem_cons.1 first
        exact ⟨before, x, after, split, List.mem_cons.not.2 (not_or.2 ⟨Ne.symm ne, fresh⟩), first, sound, same⟩
    have later : (∃ before x after, es = before ++ x :: after ∧ x.fromPort ∉ seen ∧
          (∀ z ∈ y :: before, z.fromPort ≠ x.fromPort) ∧ x.sound ∧ e = { x with cost := max 1 x.cost }) →
        ∃ before x after, y :: es = before ++ x :: after ∧ x.fromPort ∉ seen ∧
          (∀ z ∈ before, z.fromPort ≠ x.fromPort) ∧ x.sound ∧ e = { x with cost := max 1 x.cost } := by
      rintro ⟨before, x, after, rfl, found⟩
      exact ⟨y :: before, x, after, rfl, found⟩
    have here {before : List LinkEntry} {x : LinkEntry} {after : List LinkEntry} (split : y :: es = before ++ x :: after) :
        (before = [] ∧ x = y) ∨ ∃ before', before = y :: before' ∧ es = before' ++ x :: after := by
      cases before with
      | nil =>
        cases split
        exact .inl ⟨rfl, rfl⟩
      | cons z before =>
        cases split
        exact .inr ⟨before, rfl, rfl⟩
    unfold validEntriesFrom
    split
    · rename_i good
      obtain ⟨fromPort, toPort, toNode, fresh⟩ := good
      rw [List.mem_cons, rest]
      constructor
      · rintro (rfl | found)
        · exact ⟨[], y, es, rfl, fresh, nofun, ⟨fromPort, toPort, toNode⟩, rfl⟩
        · exact later found
      · rintro ⟨before, x, after, split, found⟩
        rcases here split with ⟨-, rfl⟩ | ⟨before', rfl, split'⟩
        · exact .inl found.2.2.2
        · exact .inr ⟨before', x, after, split', found⟩
    · rename_i bad
      rw [rest]
      constructor
      · exact later
      · rintro ⟨before, x, after, split, fresh, first, ⟨fromPort, toPort, toNode⟩, same⟩
        rcases here split with ⟨-, rfl⟩ | ⟨before', rfl, split'⟩
        · exact absurd ⟨fromPort, toPort, toNode, fresh⟩ bad
        · exact ⟨before', x, after, split', fresh, first, ⟨fromPort, toPort, toNode⟩, same⟩

theorem validEntriesFrom_fresh {seen : List Nat} {es : List LinkEntry} :
    ∀ e ∈ validEntriesFrom seen es, e.fromPort ∉ seen := by
  intro e mem
  obtain ⟨before, x, after, -, fresh, -, -, rfl⟩ := mem_validEntriesFrom.1 mem
  exact fresh

theorem validEntriesFrom_pairwise (seen : List Nat) (es : List LinkEntry) :
    (validEntriesFrom seen es).Pairwise (fun a b => a.fromPort ≠ b.fromPort) := by
  induction es generalizing seen with
  | nil => exact .nil
  | cons y es ih =>
    unfold validEntriesFrom
    split
    · refine List.pairwise_cons.2 ⟨fun e mem same => ?_, ih _⟩
      exact validEntriesFrom_fresh e mem (List.mem_cons.2 (.inl same.symm))
    · exact ih _

namespace Table

variable {α : Type} {key : α → Nat}

/-- Records of keys that differ, put into a table one after another, all stand in it. -/
theorem foldl_put {l acc : List α} (sorted : Sorted key acc) (differ : l.Pairwise (fun a b => key a ≠ key b)) :
    Sorted key (l.foldl (fun acc x => put key x acc) acc) ∧
      ∀ y, y ∈ l.foldl (fun acc x => put key x acc) acc ↔ y ∈ l ∨ (y ∈ acc ∧ ∀ x ∈ l, key y ≠ key x) := by
  induction l generalizing acc with
  | nil => exact ⟨sorted, fun y => by simp⟩
  | cons x l ih =>
    obtain ⟨first, differ⟩ := List.pairwise_cons.1 differ
    obtain ⟨sorted', mem⟩ := ih (sorted_put sorted x) differ
    refine ⟨sorted', fun y => ?_⟩
    rw [List.foldl_cons, mem, mem_put sorted, List.mem_cons, List.forall_mem_cons]
    constructor
    · rintro (inl | ⟨rfl | ⟨old, ne⟩, out⟩)
      · exact .inl (.inr inl)
      · exact .inl (.inl rfl)
      · exact .inr ⟨old, ne, out⟩
    · rintro ((rfl | inl) | ⟨old, ne, out⟩)
      · exact .inr ⟨.inl rfl, first⟩
      · exact .inl inl
      · exact .inr ⟨.inr ⟨old, ne⟩, out⟩

/-- A lookup is not touched by records that are filtered out under other keys. -/
theorem lookup_filter {l : List α} {k : Nat} {q : α → Bool} (keeps : ∀ x ∈ l, key x = k → q x = true) :
    lookup key k (l.filter q) = lookup key k l := by
  induction l with
  | nil => rfl
  | cons x l ih =>
    have ih := ih fun y mem => keeps y (.tail _ mem)
    unfold lookup at ih ⊢
    rw [List.filter_cons]
    by_cases here : key x = k
    · rw [if_pos (keeps x (.head _) here), List.find?_cons_of_pos (by simpa using here),
        List.find?_cons_of_pos (by simpa using here)]
    · rw [List.find?_cons_of_neg (by simpa using here)]
      split
      · rw [List.find?_cons_of_neg (by simpa using here), ih]
      · exact ih

/-- A record stands under a key exactly where a lookup finds one. -/
theorem lookup_isSome {l : List α} {k : Nat} : (lookup key k l).isSome = true ↔ ∃ x ∈ l, key x = k := by
  rw [← Option.ne_none_iff_isSome, Ne, lookup_eq_none]
  push Not
  rfl

end Table

/-- The valid entries stand in rising from-port order, and are those that the frame brings (R30, R31). -/
theorem validEntries_spec (es : List LinkEntry) : Table.Sorted LinkEntry.fromPort (validEntries es) ∧
    ∀ e, e ∈ validEntries es ↔ e ∈ validEntriesFrom [] es := by
  obtain ⟨sorted, mem⟩ := Table.foldl_put (key := LinkEntry.fromPort) (acc := []) List.Pairwise.nil
    (validEntriesFrom_pairwise [] es)
  exact ⟨sorted, fun e => (mem e).trans (by simp)⟩

/-- Settles O30. -/
theorem validEntriesAreChosen : Obligations.ValidEntriesAreChosen := by
  unfold Obligations.ValidEntriesAreChosen
  intro es
  obtain ⟨sorted, mem⟩ := validEntries_spec es
  refine ⟨sorted, fun e => ?_⟩
  rw [mem, mem_validEntriesFrom]
  simp only [LinkEntry.sound, validNode, Bool.and_eq_true, decide_eq_true_eq, List.not_mem_nil, not_false_eq_true,
    true_and, and_assoc]

/-- An entry that forms a link record in range (R22, R30, R31). -/
def LinkEntry.inRange (e : LinkEntry) : Prop := e.sound ∧ 1 ≤ e.cost ∧ e.widths

theorem validEntries_inRange {es : List LinkEntry} (widths : ∀ e ∈ es, e.widths) : ∀ e ∈ validEntries es, e.inRange := by
  intro e mem
  rw [(validEntries_spec es).2, mem_validEntriesFrom] at mem
  obtain ⟨before, x, after, rfl, -, -, sound, rfl⟩ := mem
  obtain ⟨cost, noise, lo, hi⟩ := widths x (by simp)
  exact ⟨sound, Nat.le_max_left .., by show max 1 x.cost ≤ 65535; omega, noise, lo, hi⟩

theorem LinkEntry.inRange.record {e : LinkEntry} (h : e.inRange) {node : Nat} (valid : validNode node = true) :
    (e.record node).inRange := by
  obtain ⟨⟨fromPort, toPort, toNode⟩, least, cost, noise, lo, hi⟩ := h
  exact ⟨by simp [LinkKey.valid, LinkEntry.record, valid, fromPort], toNode, toPort, least, cost, noise, lo, hi⟩

/-- The own link set is in range where the ports are (R42, R49). -/
theorem State.ownLinkSet_inRange {s : State} (ports : ∀ i : Fin 16, s.pt.ports[i].inRange) :
    ∀ e ∈ s.ownLinkSet, e.inRange := by
  intro e mem
  obtain ⟨p, inside, found⟩ := List.mem_filterMap.1 mem
  have fitted : p < 16 := List.mem_range.1 inside
  have is : s.port p = s.pt.ports[p] := by simp [State.port, Vector.getD, fitted]
  have inRange : (s.port p).inRange := by
    rw [is]
    exact ports ⟨p, fitted⟩
  unfold State.ownLink at found
  split at found
  · split at found
    · rename_i node q trace
      cases found
      obtain ⟨least, cost, noise, lo, hi, heard⟩ := inRange
      rw [trace, Trace.inRange, Bool.and_eq_true, decide_eq_true_eq] at heard
      exact ⟨⟨Nat.le_of_lt_succ fitted, heard.2, heard.1⟩, least, cost, noise, lo, hi⟩
    · cases found
  · cases found

theorem State.ownLinkSet_pairwise (s : State) : s.ownLinkSet.Pairwise (fun a b => a.fromPort < b.fromPort) := by
  have port {p : Nat} {e : LinkEntry} (found : s.ownLink p = some e) : e.fromPort = p := by
    unfold State.ownLink at found
    split at found
    · split at found <;> cases found
      rfl
    · cases found
  refine List.pairwise_filterMap.2 (List.Pairwise.imp ?_ List.pairwise_lt_range)
  intro p q lt e found f found'
  rw [port found, port found']
  exact lt

end Sys2Proof.Machine

namespace Sys2Proof.Machine

/-! The tables of the view as tables: their form (R21, R22), and verification over them (R33). -/

/-- A node has a record. -/
def hasNode (nodes : List NodeRecord) (n : Nat) : Bool := (Table.lookup NodeRecord.id n nodes).isSome

theorem hasNode_iff {nodes : List NodeRecord} {n : Nat} : hasNode nodes n = true ↔ ∃ r ∈ nodes, r.id = n :=
  Table.lookup_isSome

/-- A node record in range, its age aside. -/
def NodeRecord.sound (own : Nat) (r : NodeRecord) : Prop :=
  validNode r.id = true ∧ r.profile ≤ 15 ∧ r.missing ≤ 16 ∧ r.own = (r.id == own)

/-- The form of the tables; the records of `pend` have reached age 10 and await their purge (R34). -/
structure ViewTables (own : Nat) (pend : List Nat) (nodes : List NodeRecord) (links : List LinkRecord) : Prop where
  nodesSorted : Table.Sorted NodeRecord.id nodes
  linksSorted : Table.Sorted LinkRecord.code links
  room : nodes.length ≤ 64
  peerLinks : (dropLinks own links).length ≤ 496
  sound : ∀ r ∈ nodes, r.sound own
  young : ∀ r ∈ nodes, r.age ≤ 9 ∨ r.id ∈ pend
  linkRange : ∀ l ∈ links, l.inRange
  fromNode : ∀ l ∈ links, hasNode nodes l.key.node = true

theorem State.viewForm_iff {s : State} : s.ViewForm ↔
    ViewTables s.ownId [] s.tv.nodes s.tv.links ∧ (s.sc.station.joined = true → hasNode s.tv.nodes s.ownId = true) := by
  constructor
  · intro h
    refine ⟨⟨h.nodesSorted, h.linksSorted, h.room, h.peerLinks, fun r mem => ?_, fun r mem => ?_, h.links, h.fromNode⟩,
      h.own⟩
    · obtain ⟨id, profile, -, missing, own⟩ := h.nodes r mem
      exact ⟨id, profile, missing, own⟩
    · exact .inl (h.nodes r mem).2.2.1
  · rintro ⟨h, own⟩
    refine ⟨h.nodesSorted, h.linksSorted, h.room, h.peerLinks, fun r mem => ?_, h.linkRange, h.fromNode, own⟩
    obtain ⟨id, profile, missing, mark⟩ := h.sound r mem
    exact ⟨id, profile, (h.young r mem).resolve_right List.not_mem_nil, missing, mark⟩

/-- Node records under other keys are found after a record is put. -/
theorem hasNode_put {nodes : List NodeRecord} (sorted : Table.Sorted NodeRecord.id nodes) (r : NodeRecord) (n : Nat) :
    hasNode (Table.put NodeRecord.id r nodes) n = (hasNode nodes n || r.id == n) := by
  rw [Bool.eq_iff_iff, Bool.or_eq_true, hasNode_iff, hasNode_iff, beq_iff_eq]
  constructor
  · rintro ⟨x, mem, rfl⟩
    rcases (Table.mem_put sorted).1 mem with rfl | ⟨old, -⟩
    · exact .inr rfl
    · exact .inl ⟨x, old, rfl⟩
  · rintro (⟨x, old, rfl⟩ | rfl)
    · by_cases same : x.id = r.id
      · exact ⟨r, (Table.mem_put sorted).2 (.inl rfl), same.symm⟩
      · exact ⟨x, (Table.mem_put sorted).2 (.inr ⟨old, same⟩), rfl⟩
    · exact ⟨r, (Table.mem_put sorted).2 (.inl rfl), rfl⟩

theorem hasNode_erase (nodes : List NodeRecord) (m n : Nat) :
    hasNode (Table.erase NodeRecord.id m nodes) n = (hasNode nodes n && n != m) := by
  rw [Bool.eq_iff_iff, Bool.and_eq_true, hasNode_iff, hasNode_iff, bne_iff_ne]
  constructor
  · rintro ⟨x, mem, rfl⟩
    obtain ⟨old, ne⟩ := List.mem_filter.1 mem
    exact ⟨⟨x, old, rfl⟩, by simpa using ne⟩
  · rintro ⟨⟨x, old, rfl⟩, ne⟩
    exact ⟨x, List.mem_filter.2 ⟨old, by simpa using ne⟩, rfl⟩

theorem hasNode_map {nodes : List NodeRecord} {f : NodeRecord → NodeRecord} (id : ∀ r, (f r).id = r.id) (n : Nat) :
    hasNode (nodes.map f) n = hasNode nodes n := by
  rw [Bool.eq_iff_iff, hasNode_iff, hasNode_iff]
  constructor
  · rintro ⟨_, mem, rfl⟩
    obtain ⟨r, old, rfl⟩ := List.mem_map.1 mem
    exact ⟨r, old, (id r).symm⟩
  · rintro ⟨r, old, rfl⟩
    exact ⟨f r, List.mem_map_of_mem old, id r⟩

/-- A record put adds at most itself to the records that pass a test. -/
theorem Table.countP_put_le {α : Type} {key : α → Nat} (x : α) (l : List α) (q : α → Bool) :
    (Table.put key x l).countP q ≤ l.countP q + if q x then 1 else 0 := by
  induction l with
  | nil => simp [Table.put, List.countP_cons]
  | cons y l ih =>
    unfold Table.put
    split
    · rw [List.countP_cons]
    · split
      · rw [List.countP_cons, List.countP_cons]
        omega
      · rw [List.countP_cons, List.countP_cons]
        omega

theorem Table.sorted_map {α : Type} {key : α → Nat} {l : List α} {f : α → α} (h : Sorted key l)
    (same : ∀ x, key (f x) = key x) : Sorted key (l.map f) :=
  List.pairwise_map.2 (List.Pairwise.imp (fun lt => by rw [same, same]; exact lt) h)

theorem mem_dropLinks {node : Nat} {links : List LinkRecord} {l : LinkRecord} :
    l ∈ dropLinks node links ↔ l ∈ links ∧ l.key.node ≠ node := by
  rw [dropLinks, List.mem_filter, bne_iff_ne]

namespace ViewTables

variable {own : Nat} {pend : List Nat} {nodes : List NodeRecord} {links : List LinkRecord}

theorem dropLinks (h : ViewTables own pend nodes links) (node : Nat) :
    ViewTables own pend nodes (Machine.dropLinks node links) := by
  have sub : (Machine.dropLinks node links).Sublist links := List.filter_sublist
  refine ⟨h.nodesSorted, h.linksSorted.sublist sub, h.room, ?_, h.sound, h.young, fun l mem => h.linkRange l (sub.mem mem),
    fun l mem => h.fromNode l (sub.mem mem)⟩
  exact (sub.filter _).length_le.trans h.peerLinks

/-- A record without links goes, and with it its place among those that await their purge. -/
theorem erase {node : Nat} (h : ViewTables own (node :: pend) nodes links) (unlinked : ∀ l ∈ links, l.key.node ≠ node) :
    ViewTables own pend (Table.erase NodeRecord.id node nodes) links := by
  refine ⟨Table.sorted_erase h.nodesSorted _, h.linksSorted, (List.length_filter_le ..).trans h.room, h.peerLinks,
    fun r mem => h.sound r (Table.mem_of_mem_erase mem), fun r mem => ?_, h.linkRange, fun l mem => ?_⟩
  · obtain ⟨old, ne⟩ := List.mem_filter.1 mem
    refine (h.young r old).imp_right fun inl => ?_
    rcases List.mem_cons.1 inl with same | inl
    · rw [same] at ne
      simp at ne
    · exact inl
  · rw [hasNode_erase, h.fromNode l mem, Bool.true_and, bne_iff_ne]
    exact unlinked l mem

theorem await (h : ViewTables own pend nodes links) (node : Nat) : ViewTables own (node :: pend) nodes links :=
  ⟨h.nodesSorted, h.linksSorted, h.room, h.peerLinks, h.sound, fun r mem => (h.young r mem).imp_right (.tail _), h.linkRange,
    h.fromNode⟩

/-- A record in range takes the place of its own, or finds room. -/
theorem put (h : ViewTables own pend nodes links) {r : NodeRecord} (sound : r.sound own) (young : r.age ≤ 9)
    (room : hasNode nodes r.id = true ∨ nodes.length < 64) :
    ViewTables own pend (Table.put NodeRecord.id r nodes) links := by
  refine ⟨Table.sorted_put h.nodesSorted r, h.linksSorted, ?_, h.peerLinks, Table.forall_put h.nodesSorted h.sound sound,
    Table.forall_put h.nodesSorted h.young (.inl young), h.linkRange, fun l mem => ?_⟩
  · rcases room with known | free
    · obtain ⟨x, found⟩ := Option.isSome_iff_exists.1 known
      exact (Table.length_put_known h.nodesSorted found).trans_le h.room
    · exact (Table.length_put_le h.nodesSorted r).trans free
  · rw [hasNode_put h.nodesSorted, h.fromNode l mem, Bool.true_or]

/-- Records whose verification alone changes keep the form. -/
theorem mapLinks (h : ViewTables own pend nodes links) {f : LinkRecord → LinkRecord}
    (same : ∀ l, f l = { l with verified := (f l).verified }) : ViewTables own pend nodes (links.map f) := by
  have key (l : LinkRecord) : (f l).key = l.key := by rw [same]
  refine ⟨h.nodesSorted, Table.sorted_map h.linksSorted fun l => congrArg LinkKey.code (key l), h.room, ?_, h.sound,
    h.young, fun l mem => ?_, fun l mem => ?_⟩
  · have dropped : Machine.dropLinks own (links.map f) = (Machine.dropLinks own links).map f := by
      rw [Machine.dropLinks, List.filter_map]
      refine congrArg (List.map f) (List.filter_congr fun l _ => ?_)
      rw [Function.comp_apply, key]
    rw [dropped, List.length_map]
    exact h.peerLinks
  · obtain ⟨x, old, rfl⟩ := List.mem_map.1 mem
    rw [same]
    exact h.linkRange x old
  · obtain ⟨x, old, rfl⟩ := List.mem_map.1 mem
    rw [key]
    exact h.fromNode x old

theorem putLink (h : ViewTables own pend nodes links) {l : LinkRecord} (inRange : l.inRange)
    (known : hasNode nodes l.key.node = true)
    (room : l.key.node = own ∨ (Machine.dropLinks own links).length < 496) :
    ViewTables own pend nodes (Table.put LinkRecord.code l links) := by
  refine ⟨h.nodesSorted, Table.sorted_put h.linksSorted l, h.room, ?_, h.sound, h.young,
    Table.forall_put h.linksSorted h.linkRange inRange, Table.forall_put h.linksSorted h.fromNode known⟩
  have most := Table.countP_put_le (key := LinkRecord.code) l links (fun l => l.key.node != own)
  rw [Machine.dropLinks, ← List.countP_eq_length_filter] at *
  have := h.peerLinks
  rw [Machine.dropLinks, ← List.countP_eq_length_filter] at this
  rcases room with same | free
  · rw [same, bne_self_eq_false, if_neg Bool.false_ne_true] at most
    omega
  · split at most <;> omega

/-- A link set is stored as far as room goes (R22, R24, R31). -/
theorem storeLinks (h : ViewTables own pend nodes links) {node : Nat} (valid : validNode node = true)
    (known : hasNode nodes node = true) {es : List LinkEntry} (inRange : ∀ e ∈ es, e.inRange)
    (room : node = own ∨ (Machine.dropLinks own links).length + es.length ≤ 496) :
    ViewTables own pend nodes (Machine.storeLinks node es links) := by
  induction es generalizing links with
  | nil => exact h
  | cons e es ih =>
    obtain ⟨first, inRange⟩ := List.forall_mem_cons.1 inRange
    refine ih (h.putLink (first.record valid) known (room.imp_right fun le => ?_)) inRange (room.imp_right fun le => ?_)
    · rw [List.length_cons] at le
      omega
    · have most := Table.countP_put_le (key := LinkRecord.code) (e.record node) links (fun l => l.key.node != own)
      rw [List.length_cons] at le
      rw [Machine.dropLinks, ← List.countP_eq_length_filter] at le ⊢
      dsimp only
      split at most <;> omega

/-- The peer records grow older; those of age 10 await their purge (R34). -/
theorem older (h : ViewTables own [] nodes links) : ViewTables own
    (((nodes.map NodeRecord.older).filter (fun r => !r.own && decide (10 ≤ r.age))).map NodeRecord.id)
    (nodes.map NodeRecord.older) links := by
  have id (r : NodeRecord) : r.older.id = r.id := by unfold NodeRecord.older; split <;> rfl
  refine ⟨Table.sorted_map h.nodesSorted id, h.linksSorted, by rw [List.length_map]; exact h.room, h.peerLinks,
    fun r mem => ?_, fun r mem => ?_, h.linkRange, fun l mem => by rw [hasNode_map id]; exact h.fromNode l mem⟩
  · obtain ⟨x, old, rfl⟩ := List.mem_map.1 mem
    have sound := h.sound x old
    unfold NodeRecord.older
    split
    · exact sound
    · exact sound
  · by_cases young : r.age ≤ 9
    · exact .inl young
    · refine .inr (List.mem_map_of_mem (List.mem_filter.2 ⟨mem, ?_⟩))
      obtain ⟨x, old, rfl⟩ := List.mem_map.1 mem
      have before := (h.young x old).resolve_right List.not_mem_nil
      unfold NodeRecord.older at young ⊢
      split
      · rename_i mine
        rw [if_pos mine] at young
        exact absurd before young
      · rename_i peer
        rw [if_neg peer] at young
        simp only [Bool.and_eq_true, Bool.not_eq_true', decide_eq_true_eq]
        exact ⟨Bool.eq_false_of_not_eq_true peer, by simp only at young; omega⟩

end ViewTables

/-! ### Verification over the tables (R33) -/

/-- Each link's verification is what the tables say. -/
def Verifies (nodes : List NodeRecord) (links : List LinkRecord) : Prop :=
  ∀ l ∈ links, l.verified = reverseStored nodes links l

/-- The links with those to and from a node verified anew. -/
def reverifiedLinks (node : Nat) (nodes : List NodeRecord) (links : List LinkRecord) : List LinkRecord :=
  links.map (fun l =>
    if l.key.node = node ∨ l.toNode = node then { l with verified := reverseStored nodes links l } else l)

theorem State.reverify_links (s : State) (node : Nat) :
    (s.reverify node).tv.links = reverifiedLinks node s.tv.nodes s.tv.links := rfl

/-- The far link of a link. -/
def farLink (links : List LinkRecord) (l : LinkRecord) : Option LinkRecord :=
  Table.lookup LinkRecord.code (LinkKey.code ⟨l.toNode, l.toPort⟩) links

theorem reverseStored_eq (nodes : List NodeRecord) (links : List LinkRecord) (l : LinkRecord) :
    reverseStored nodes links l = (l.toNode != l.key.node && hasNode nodes l.toNode &&
      (farLink links l).any (fun r => r.toNode == l.key.node && r.toPort == l.key.port)) := by
  unfold reverseStored farLink hasNode
  split <;> simp only [*, Option.any_none, Option.any_some]

theorem lookup_map {α : Type} {key : α → Nat} {f : α → α} (same : ∀ x, key (f x) = key x) (l : List α) (k : Nat) :
    Table.lookup key k (l.map f) = (Table.lookup key k l).map f := by
  unfold Table.lookup
  rw [List.find?_map]
  refine congrArg (Option.map f) (congrArg (List.find? · l) (funext fun x => ?_))
  rw [Function.comp_apply, same]

/-- Verification rests on the nodes known and on the far link's far end alone. -/
theorem reverseStored_congr {nodes nodes' : List NodeRecord} {links links' : List LinkRecord} {l : LinkRecord}
    (node : hasNode nodes' l.toNode = hasNode nodes l.toNode)
    (far : (farLink links' l).map (fun r => (r.toNode, r.toPort)) = (farLink links l).map (fun r => (r.toNode, r.toPort))) :
    reverseStored nodes' links' l = reverseStored nodes links l := by
  have ends (o : Option LinkRecord) : o.any (fun r => r.toNode == l.key.node && r.toPort == l.key.port) =
      (o.map (fun r => (r.toNode, r.toPort))).any (fun x => x.1 == l.key.node && x.2 == l.key.port) := by
    cases o <;> rfl
  rw [reverseStored_eq, reverseStored_eq, node, ends, ends, far]

/-- Links whose verification alone changes have the same far ends. -/
theorem farLink_map {links : List LinkRecord} {f : LinkRecord → LinkRecord}
    (same : ∀ l, f l = { l with verified := (f l).verified }) (l : LinkRecord) :
    (farLink (links.map f) l).map (fun r => (r.toNode, r.toPort)) = (farLink links l).map (fun r => (r.toNode, r.toPort)) := by
  have key (l : LinkRecord) : (f l).code = l.code := by rw [same]; rfl
  rw [farLink, lookup_map key, Option.map_map]
  refine congrArg (fun g => Option.map g (farLink links l)) (funext fun r => ?_)
  rw [Function.comp_apply, same]

theorem reverified_same (node : Nat) (nodes : List NodeRecord) (links : List LinkRecord) (l : LinkRecord) :
    (if l.key.node = node ∨ l.toNode = node then { l with verified := reverseStored nodes links l } else l) =
      { l with verified := (if l.key.node = node ∨ l.toNode = node then
        { l with verified := reverseStored nodes links l } else l : LinkRecord).verified } := by
  split <;> rfl

/-- Verifying a node's links anew brings all in agreement, where the others agree. -/
theorem Verifies.reverified {node : Nat} {nodes : List NodeRecord} {links : List LinkRecord}
    (others : ∀ l ∈ links, l.key.node ≠ node → l.toNode ≠ node → l.verified = reverseStored nodes links l) :
    Verifies nodes (reverifiedLinks node nodes links) := by
  intro l mem
  obtain ⟨x, old, rfl⟩ := List.mem_map.1 mem
  have same : reverseStored nodes (reverifiedLinks node nodes links) x = reverseStored nodes links x :=
    reverseStored_congr rfl (farLink_map (reverified_same node nodes links) x)
  split
  · exact same.symm
  · rename_i away
    obtain ⟨fromOther, toOther⟩ := not_or.1 away
    rw [same]
    exact others x old fromOther toOther

/-- A change of the records and links of one node, after which its links are verified anew (R33). -/
theorem Verifies.changed {node : Nat} {nodes nodes' : List NodeRecord} {links links' : List LinkRecord}
    (h : Verifies nodes links) (known : ∀ n, n ≠ node → hasNode nodes' n = hasNode nodes n)
    (found : ∀ k : LinkKey, k.port < 256 → k.node ≠ node →
      Table.lookup LinkRecord.code k.code links' = Table.lookup LinkRecord.code k.code links)
    (old : ∀ l ∈ links', l.key.node ≠ node → l ∈ links) (ports : ∀ l ∈ links, l.toPort ≤ 15) :
    Verifies nodes' (reverifiedLinks node nodes' links') := by
  refine .reverified fun l mem fromOther toOther => ?_
  have mem := old l mem fromOther
  rw [h l mem]
  refine reverseStored_congr (known _ toOther).symm (congrArg _ (found ⟨l.toNode, l.toPort⟩ ?_ toOther).symm)
  exact (ports l mem).trans_lt (by decide)

/-- Records that know the same nodes verify the same links. -/
theorem Verifies.congr {nodes nodes' : List NodeRecord} {links : List LinkRecord} (h : Verifies nodes links)
    (known : ∀ n, hasNode nodes' n = hasNode nodes n) : Verifies nodes' links := by
  intro l mem
  rw [h l mem]
  exact (reverseStored_congr (known _) rfl).symm

theorem lookup_dropLinks {links : List LinkRecord} (ports : ∀ l ∈ links, l.key.port ≤ 15) {node : Nat} {k : LinkKey}
    (port : k.port < 256) (other : k.node ≠ node) :
    Table.lookup LinkRecord.code k.code (dropLinks node links) = Table.lookup LinkRecord.code k.code links := by
  refine Table.lookup_filter fun l mem same => ?_
  rw [LinkKey.code_inj ((ports l mem).trans_lt (by decide)) port same]
  simpa using other

theorem lookup_storeLinks {links : List LinkRecord} (sorted : Table.Sorted LinkRecord.code links) {node : Nat}
    {es : List LinkEntry} (ports : ∀ e ∈ es, e.fromPort ≤ 15) {k : LinkKey} (port : k.port < 256) (other : k.node ≠ node) :
    Table.lookup LinkRecord.code k.code (storeLinks node es links) = Table.lookup LinkRecord.code k.code links := by
  induction es generalizing links with
  | nil => rfl
  | cons e es ih =>
    obtain ⟨first, ports⟩ := List.forall_mem_cons.1 ports
    refine (ih (Table.sorted_put sorted _) ports).trans (Table.lookup_put_ne sorted _ fun same => other ?_)
    have is : k = ⟨node, e.fromPort⟩ := LinkKey.code_inj port (first.trans_lt (by decide)) same
    rw [is]

theorem mem_storeLinks {links : List LinkRecord} (sorted : Table.Sorted LinkRecord.code links) {node : Nat}
    {es : List LinkEntry} {l : LinkRecord} (mem : l ∈ storeLinks node es links) : l ∈ links ∨ l.key.node = node := by
  induction es generalizing links with
  | nil => exact .inl mem
  | cons e es ih =>
    rcases ih (Table.sorted_put sorted _) mem with put | new
    · rcases (Table.mem_put sorted).1 put with rfl | ⟨old, -⟩
      · exact .inr rfl
      · exact .inl old
    · exact .inr new

namespace ViewTables

variable {own : Nat} {pend : List Nat} {nodes : List NodeRecord} {links : List LinkRecord}

theorem fromPorts (h : ViewTables own pend nodes links) : ∀ l ∈ links, l.key.port ≤ 15 :=
  fun l mem => LinkKey.valid_port (h.linkRange l mem).1

theorem toPorts (h : ViewTables own pend nodes links) : ∀ l ∈ links, l.toPort ≤ 15 :=
  fun l mem => (h.linkRange l mem).2.2.1

/-- One node's link set is replaced, and its record may change, be new or go (R24, R31, R33, R35). -/
theorem verifies_replaced (h : ViewTables own pend nodes links) (verifies : Verifies nodes links) {node : Nat}
    {nodes' : List NodeRecord} (known : ∀ n, n ≠ node → hasNode nodes' n = hasNode nodes n) {es : List LinkEntry}
    (ports : ∀ e ∈ es, e.fromPort ≤ 15) :
    Verifies nodes' (reverifiedLinks node nodes' (Machine.storeLinks node es (Machine.dropLinks node links))) := by
  have sorted := (h.dropLinks node).linksSorted
  refine verifies.changed known (fun k port other => ?_) (fun l mem other => ?_) h.toPorts
  · rw [lookup_storeLinks sorted ports port other, lookup_dropLinks h.fromPorts port other]
  · exact (mem_dropLinks.1 ((mem_storeLinks sorted mem).resolve_right other)).1

/-- Verification as R33 states it, over the tables. -/
theorem verified_iff (h : ViewTables own pend nodes links) : Verifies nodes links ↔ ∀ l ∈ links, l.verified = true ↔
    (l.toNode ≠ l.key.node ∧ (∃ r ∈ nodes, r.id = l.toNode)
      ∧ ∃ m ∈ links, m.key = ⟨l.toNode, l.toPort⟩ ∧ m.toNode = l.key.node ∧ m.toPort = l.key.port) := by
  refine forall₂_congr fun l mem => ?_
  rw [Bool.eq_iff_iff, reverseStored_eq, Bool.and_eq_true, Bool.and_eq_true, bne_iff_ne, hasNode_iff, and_assoc]
  refine iff_congr Iff.rfl (and_congr_right fun _ => and_congr_right fun _ => ?_)
  rw [Option.any_eq_true]
  refine exists_congr fun m => ?_
  rw [farLink, Table.lookup_eq_some h.linksSorted, Bool.and_eq_true, beq_iff_eq, beq_iff_eq, and_assoc]
  refine and_congr_right fun stored => and_congr_left fun _ => ⟨fun same => ?_, fun same => congrArg LinkKey.code same⟩
  exact LinkKey.code_inj ((h.fromPorts m stored).trans_lt (by decide)) ((h.toPorts l mem).trans_lt (by decide)) same

end ViewTables

end Sys2Proof.Machine

namespace Sys2Proof.Machine

/-- A record put twice under one key is put once. -/
theorem Table.put_put {α : Type} {key : α → Nat} (l : List α) {x y : α} (same : key x = key y) :
    put key y (put key x l) = put key y l := by
  induction l with
  | nil => simp [put, same]
  | cons z l ih =>
    by_cases lt : key y < key z
    · simp [put, same, lt]
    · by_cases eq : key y = key z
      · simp [put, same, eq]
      · simp [put, same, lt, eq, ih]

/-! ### What one operation makes of the tables of the view -/

/-- One operation on the view: a known record changes, a node's record and link set are stored, a peer is purged, or all is
cleared (R23, R24, R29, R31, R35, R40, R55). -/
inductive ViewChange (own : Nat) (nodes : List NodeRecord) (links : List LinkRecord) :
    List NodeRecord → List LinkRecord → Prop
  | unchanged : ViewChange own nodes links nodes links
  | record (r : NodeRecord) (known : hasNode nodes r.id = true) (sound : r.sound own) (young : r.age ≤ 9) :
      ViewChange own nodes links (Table.put NodeRecord.id r nodes) links
  | linkSet (r : NodeRecord) (es : List LinkEntry) (sound : r.sound own) (young : r.age ≤ 9)
      (room : hasNode nodes r.id = true ∨ nodes.length < 64) (inRange : ∀ e ∈ es, e.inRange)
      (linkRoom : r.id = own ∨ (dropLinks own (dropLinks r.id links)).length + es.length ≤ 496) :
      ViewChange own nodes links (Table.put NodeRecord.id r nodes)
        (reverifiedLinks r.id (Table.put NodeRecord.id r nodes) (storeLinks r.id es (dropLinks r.id links)))
  | purge (node : Nat) (peer : node ≠ own) :
      ViewChange own nodes links (Table.erase NodeRecord.id node nodes)
        (reverifiedLinks node (Table.erase NodeRecord.id node nodes) (dropLinks node links))

namespace ViewTables

variable {own : Nat} {pend : List Nat} {nodes nodes' : List NodeRecord} {links links' : List LinkRecord}

theorem reverified (h : ViewTables own pend nodes links) (node : Nat) (known : List NodeRecord) :
    ViewTables own pend nodes (reverifiedLinks node known links) := h.mapLinks (reverified_same node known links)

/-- A purge takes a record, its links, and its place among those that await theirs (R35). -/
theorem purge (h : ViewTables own (node :: pend) nodes links) : ViewTables own pend
    (Table.erase NodeRecord.id node nodes) (reverifiedLinks node (Table.erase NodeRecord.id node nodes) (Machine.dropLinks node links)) :=
  ((h.dropLinks node).erase fun _ mem => (mem_dropLinks.1 mem).2).reverified node _

theorem verifies_purge (h : ViewTables own pend nodes links) (verifies : Verifies nodes links) (node : Nat) :
    Verifies (Table.erase NodeRecord.id node nodes)
      (reverifiedLinks node (Table.erase NodeRecord.id node nodes) (Machine.dropLinks node links)) :=
  h.verifies_replaced verifies (es := [])
    (fun n other => by rw [hasNode_erase, bne_iff_ne.2 other, Bool.and_true]) nofun

theorem change (h : ViewTables own [] nodes links) (change : ViewChange own nodes links nodes' links') :
    ViewTables own [] nodes' links' := by
  cases change with
  | unchanged => exact h
  | record r known sound young => exact h.put sound young (.inl known)
  | linkSet r es sound young room inRange linkRoom =>
    have put := (h.dropLinks r.id).put sound young room
    refine (put.storeLinks sound.1 ?_ inRange linkRoom).reverified r.id _
    rw [hasNode_put h.nodesSorted, beq_self_eq_true, Bool.or_true]
  | purge node => exact (h.await node).purge

theorem verifies_change (h : ViewTables own [] nodes links) (verifies : Verifies nodes links)
    (change : ViewChange own nodes links nodes' links') : Verifies nodes' links' := by
  cases change with
  | unchanged => exact verifies
  | record r known =>
    refine verifies.congr fun n => ?_
    rw [hasNode_put h.nodesSorted]
    by_cases same : r.id = n
    · rw [← same, known, Bool.true_or]
    · rw [beq_false_of_ne same, Bool.or_false]
  | linkSet r es sound young room inRange linkRoom =>
    refine h.verifies_replaced verifies (fun n other => ?_) fun e mem => (inRange e mem).1.1
    rw [hasNode_put h.nodesSorted, beq_false_of_ne (Ne.symm other), Bool.or_false]
  | purge node => exact h.verifies_purge verifies node

theorem own_change (h : ViewTables own [] nodes links) (change : ViewChange own nodes links nodes' links')
    (known : hasNode nodes own = true) : hasNode nodes' own = true := by
  cases change with
  | unchanged => exact known
  | record | linkSet => rw [hasNode_put h.nodesSorted, known, Bool.true_or]
  | purge node peer => rw [hasNode_erase, known, Bool.true_and, bne_iff_ne]; exact Ne.symm peer

end ViewTables

namespace State

variable {s t u : State}

/-- `t` has the tables that one operation makes of those of `s`. -/
def Views (s t : State) : Prop := ViewChange s.ownId s.tv.nodes s.tv.links t.tv.nodes t.tv.links

theorem Views.of_eq (nodes : t.tv.nodes = s.tv.nodes) (links : t.tv.links = s.tv.links) : s.Views t := by
  unfold State.Views
  rw [nodes, links]
  exact .unchanged

/-- Work that leaves the tables after an operation. -/
theorem Views.then (h : s.Views t) (nodes : u.tv.nodes = t.tv.nodes) (links : u.tv.links = t.tv.links) : s.Views u := by
  unfold State.Views at h ⊢
  rw [nodes, links]
  exact h

/-- The work on the holds leaves the tables of the view. -/
theorem Work.nodes (work : Work outsideHolds s t) : t.tv.nodes = s.tv.nodes :=
  show t.outsideHolds.tv.nodes = s.outsideHolds.tv.nodes by rw [work.stands]

theorem Work.links (work : Work outsideHolds s t) : t.tv.links = s.tv.links :=
  show t.outsideHolds.tv.links = s.outsideHolds.tv.links by rw [work.stands]

theorem Work.viewIncomplete (work : Work outsideHolds s t) : t.tv.viewIncomplete = s.tv.viewIncomplete :=
  show t.outsideHolds.tv.viewIncomplete = s.outsideHolds.tv.viewIncomplete by rw [work.stands]

/-- The work on the ADVERT's entry leaves the view. -/
theorem Work.tv (work : Work outsideAdvert s t) : t.tv = s.tv :=
  show t.outsideAdvert.tv = s.outsideAdvert.tv by rw [work.stands]

theorem setViewIncomplete_nodes (s : State) (b : Bool) : (s.setViewIncomplete b).tv.nodes = s.tv.nodes := by
  rw [State.setViewIncomplete_eq]

theorem setViewIncomplete_links (s : State) (b : Bool) : (s.setViewIncomplete b).tv.links = s.tv.links := by
  rw [State.setViewIncomplete_eq]

/-- The tables without a node and its links, before its links are verified anew. -/
def unlisted (origin : Nat) (s : State) : State :=
  { s with tv.links := dropLinks origin s.tv.links, tv.nodes := Table.erase NodeRecord.id origin s.tv.nodes }

theorem purge_eq (s : State) (origin : Nat) : s.purge origin =
    ((((s.unlisted origin).removePeerHolds origin).reverify origin).setViewIncomplete false).count 1 := by
  unfold State.purge State.unlisted
  dsimp only

theorem purge_nodes (s : State) (origin : Nat) : (s.purge origin).tv.nodes = Table.erase NodeRecord.id origin s.tv.nodes := by
  have counted (u : State) (n : Nat) : (u.count n).tv.nodes = u.tv.nodes := rfl
  rw [purge_eq, counted, setViewIncomplete_nodes, State.reverify_tv_nodes, (Work.removePeerHolds _ _).nodes]
  rfl

theorem purge_links (s : State) (origin : Nat) : (s.purge origin).tv.links =
    reverifiedLinks origin (Table.erase NodeRecord.id origin s.tv.nodes) (dropLinks origin s.tv.links) := by
  have counted (u : State) (n : Nat) : (u.count n).tv.links = u.tv.links := rfl
  rw [purge_eq, counted, setViewIncomplete_links, State.reverify_links, (Work.removePeerHolds _ _).nodes,
    (Work.removePeerHolds _ _).links]
  rfl

theorem Views.purge (s : State) {origin : Nat} (peer : origin ≠ s.ownId) : s.Views (s.purge origin) := by
  unfold State.Views
  rw [purge_nodes, purge_links]
  exact .purge origin peer

/-- The record of an ADVERT's origin as it is stored, with what of its link set finds no room (R28, R31). -/
def advertRecord (s : State) (origin : Nat) (a : Advert) : NodeRecord :=
  { a.record origin with
    missing := (validEntries a.entries).length - (496 - (dropLinks s.ownId (dropLinks origin s.tv.links)).length) }

/-- The link records of an ADVERT's origin as they are stored (R31). -/
def advertLinks (s : State) (origin : Nat) (a : Advert) : List LinkRecord :=
  storeLinks origin ((validEntries a.entries).take (496 - (dropLinks s.ownId (dropLinks origin s.tv.links)).length))
    (dropLinks origin s.tv.links)

theorem setMissing_nodes (s : State) {node : Nat} {r : NodeRecord} (found : Table.lookup NodeRecord.id node s.tv.nodes = some r)
    (n : Nat) : (s.setMissing node n).tv.nodes = Table.put NodeRecord.id { r with missing := n } s.tv.nodes := by
  unfold State.setMissing
  rw [found]

theorem setMissing_links (s : State) (node n : Nat) : (s.setMissing node n).tv.links = s.tv.links := by
  unfold State.setMissing
  split <;> rfl

/-- The state with an ADVERT's record, before its link set is replaced (R28). -/
def withRecord (r : NodeRecord) (s : State) : State := { s with tv.nodes := Table.put NodeRecord.id r s.tv.nodes }

theorem storeAdvert_eq (s : State) (origin : Nat) (a : Advert) : s.storeAdvert origin a =
    (((((s.withRecord (a.record origin)).replacePeerLinks origin a.entries).noteMissing origin).count 2).checkSuperseded
      origin) := by
  unfold State.storeAdvert State.withRecord
  dsimp only

/-- The state with other link records. -/
def withLinks (links : List LinkRecord) (s : State) : State := { s with tv.links := links }

theorem replacePeerLinks_eq (s : State) (origin : Nat) (es : List LinkEntry) : s.replacePeerLinks origin es =
    ((s.withLinks (storeLinks origin
        ((validEntries es).take (496 - (dropLinks s.ownId (dropLinks origin s.tv.links)).length))
        (dropLinks origin s.tv.links))).setMissing origin
      ((validEntries es).length - (496 - (dropLinks s.ownId (dropLinks origin s.tv.links)).length))).reverify origin := rfl

theorem noteMissing_nodes (s : State) (origin : Nat) : (s.noteMissing origin).tv.nodes = s.tv.nodes := by
  unfold State.noteMissing
  split
  · split
    · exact setViewIncomplete_nodes s true
    · rfl
  · rfl

theorem noteMissing_links (s : State) (origin : Nat) : (s.noteMissing origin).tv.links = s.tv.links := by
  unfold State.noteMissing
  split
  · split
    · exact setViewIncomplete_links s true
    · rfl
  · rfl

theorem withRecord_found (sorted : Table.Sorted NodeRecord.id s.tv.nodes) (r : NodeRecord) :
    Table.lookup NodeRecord.id r.id (s.withRecord r).tv.nodes = some r := Table.lookup_put_self sorted r

theorem setMissing_withLinks_nodes (s : State) {node : Nat} {r : NodeRecord}
    (found : Table.lookup NodeRecord.id node s.tv.nodes = some r) (links : List LinkRecord) (n : Nat) :
    ((s.withLinks links).setMissing node n).tv.nodes = Table.put NodeRecord.id { r with missing := n } s.tv.nodes :=
  setMissing_nodes (s.withLinks links) found n

theorem replacePeerLinks_nodes (sorted : Table.Sorted NodeRecord.id s.tv.nodes) (origin : Nat) (a : Advert) :
    ((s.withRecord (a.record origin)).replacePeerLinks origin a.entries).tv.nodes =
      Table.put NodeRecord.id (s.advertRecord origin a) s.tv.nodes := by
  have found : Table.lookup NodeRecord.id origin (s.withRecord (a.record origin)).tv.nodes = some (a.record origin) :=
    withRecord_found sorted (a.record origin)
  rw [replacePeerLinks_eq, State.reverify_tv_nodes, setMissing_withLinks_nodes _ found]
  exact Table.put_put _ rfl

theorem replacePeerLinks_links (sorted : Table.Sorted NodeRecord.id s.tv.nodes) (origin : Nat) (a : Advert) :
    ((s.withRecord (a.record origin)).replacePeerLinks origin a.entries).tv.links =
      reverifiedLinks origin (Table.put NodeRecord.id (s.advertRecord origin a) s.tv.nodes) (s.advertLinks origin a) := by
  have nodes := replacePeerLinks_nodes sorted origin a
  rw [replacePeerLinks_eq] at nodes ⊢
  rw [State.reverify_tv_nodes] at nodes
  rw [State.reverify_links, nodes, setMissing_links]
  rfl

theorem storeAdvert_nodes (sorted : Table.Sorted NodeRecord.id s.tv.nodes) (origin : Nat) (a : Advert) :
    (s.storeAdvert origin a).tv.nodes = Table.put NodeRecord.id (s.advertRecord origin a) s.tv.nodes := by
  have counted (u : State) (n : Nat) : (u.count n).tv.nodes = u.tv.nodes := rfl
  rw [storeAdvert_eq, (Work.checkSuperseded _ _).nodes, counted, noteMissing_nodes, replacePeerLinks_nodes sorted]

theorem storeAdvert_links (sorted : Table.Sorted NodeRecord.id s.tv.nodes) (origin : Nat) (a : Advert) :
    (s.storeAdvert origin a).tv.links =
      reverifiedLinks origin (Table.put NodeRecord.id (s.advertRecord origin a) s.tv.nodes) (s.advertLinks origin a) := by
  have counted (u : State) (n : Nat) : (u.count n).tv.links = u.tv.links := rfl
  rw [storeAdvert_eq, (Work.checkSuperseded _ _).links, counted, noteMissing_links, replacePeerLinks_links sorted]

end State

theorem validEntries_length (es : List LinkEntry) : (validEntries es).length ≤ es.length := by
  have from_ (seen : List Nat) (es : List LinkEntry) : (validEntriesFrom seen es).length ≤ es.length := by
    induction es generalizing seen with
    | nil => exact Nat.le_refl 0
    | cons e es ih =>
      unfold validEntriesFrom
      split
      · exact Nat.succ_le_succ (ih _)
      · exact (ih _).trans (Nat.le_succ _)
  have put (l acc : List LinkEntry) (sorted : Table.Sorted LinkEntry.fromPort acc) :
      (l.foldl (fun l e => Table.put LinkEntry.fromPort e l) acc).length ≤ acc.length + l.length := by
    induction l generalizing acc with
    | nil => exact Nat.le_refl _
    | cons e l ih =>
      have := Table.length_put_le sorted e
      have := ih _ (Table.sorted_put sorted e)
      rw [List.foldl_cons, List.length_cons]
      omega
  have put := put (validEntriesFrom [] es) [] List.Pairwise.nil
  rw [List.length_nil, Nat.zero_add] at put
  exact put.trans (from_ [] es)

namespace State

variable {s t u : State}

/-- An ADVERT that is stored (R28, R29, R31). -/
theorem Views.storeAdvert (sorted : Table.Sorted NodeRecord.id s.tv.nodes) {origin : Nat} (valid : validNode origin = true)
    (peer : origin ≠ s.ownId) {body : List Byte} {a : Advert} (read : readAdvert body = some a)
    (room : hasNode s.tv.nodes origin = true ∨ s.tv.nodes.length < 64) (peerLinks : (dropLinks s.ownId (dropLinks origin s.tv.links)).length ≤ 496) :
    s.Views (s.storeAdvert origin a) := by
  obtain ⟨profile, count, widths⟩ := readAdvert_eq_some read
  unfold State.Views
  rw [storeAdvert_nodes sorted, storeAdvert_links sorted]
  refine .linkSet (s.advertRecord origin a) _ ⟨valid, profile, ?_, ?_⟩ (Nat.zero_le 9) room (fun e mem => ?_) (.inr ?_)
  · show _ - _ ≤ 16
    have := validEntries_length a.entries
    omega
  · exact (beq_false_of_ne peer).symm
  · exact validEntries_inRange widths e (List.mem_of_mem_take mem)
  · show (dropLinks s.ownId (dropLinks origin s.tv.links)).length + _ ≤ 496
    rw [List.length_take]
    omega

end State

end Sys2Proof.Machine

namespace Sys2Proof.Machine

namespace State

variable {s t u : State}

/-! ### The operations on the view, in their states -/

theorem lookup_known {n : Nat} {r : NodeRecord} (found : Table.lookup NodeRecord.id n s.tv.nodes = some r) :
    r ∈ s.tv.nodes ∧ r.id = n :=
  ⟨List.mem_of_find?_eq_some found, by simpa using List.find?_some found⟩

theorem ViewForm.tables (h : s.ViewForm) : ViewTables s.ownId [] s.tv.nodes s.tv.links := (viewForm_iff.1 h).1

/-- A known record changes outside its key (R29, R55). -/
theorem Views.record (h : s.ViewForm) {r r' : NodeRecord} (stored : r ∈ s.tv.nodes) (id : r'.id = r.id)
    (profile : r'.profile = r.profile) (missing : r'.missing = r.missing) (own : r'.own = r.own) (young : r'.age ≤ 9) :
    s.Views (s.withRecord r') := by
  obtain ⟨valid, profile', missing', own'⟩ := h.tables.sound r stored
  refine ViewChange.record r' (hasNode_iff.2 ⟨r, stored, id.symm⟩) ⟨?_, ?_, ?_, ?_⟩ young
  · rw [id]
    exact valid
  · rw [profile]
    exact profile'
  · rw [missing]
    exact missing'
  · rw [own, id]
    exact own'

theorem Views.advertFrame (h : s.ViewForm) {origin : Nat} (valid : validNode origin = true) (peer : origin ≠ s.ownId)
    (body : List Byte) : s.Views (s.advertFrame origin body) := by
  have same : s.Views s := .of_eq rfl rfl
  have peerLinks := (h.tables.dropLinks origin).peerLinks
  unfold State.advertFrame
  split
  · exact same
  · rename_i a read
    split
    · rename_i r found
      obtain ⟨stored, id⟩ := lookup_known found
      have known : hasNode s.tv.nodes origin = true := hasNode_iff.2 ⟨r, stored, id⟩
      unfold State.advertKnown
      dsimp only
      split
      · split
        · exact .purge s peer
        · exact same
      · split
        · have nodes := (Work.removePeerHolds s origin).nodes
          have links := (Work.removePeerHolds s origin).links
          have sc := (Work.removePeerHolds s origin).blocks_of_holds.sc
          have own : (s.removePeerHolds origin).ownId = s.ownId := by rw [State.ownId, sc]; rfl
          have views := Views.storeAdvert (s := s.removePeerHolds origin) (by rw [nodes]; exact h.nodesSorted) valid
            (by rw [own]; exact peer) read (.inl (by rw [nodes]; exact known)) (by rw [own, links]; exact peerLinks)
          unfold State.Views at views ⊢
          rwa [own, nodes, links] at views
        · split
          · exact .record h stored rfl rfl rfl rfl (Nat.zero_le 9)
          · split
            · exact .storeAdvert h.nodesSorted valid peer read (.inl known) peerLinks
            · exact same
    · unfold State.advertUnknown
      split
      · exact same
      · split
        · rename_i room
          exact .storeAdvert h.nodesSorted valid peer read (.inr room) peerLinks
        · exact .of_eq (setViewIncomplete_nodes s true) (setViewIncomplete_links s true)

theorem Views.writeOwnSequence (h : s.ViewForm) : s.Views s.writeOwnSequence := by
  unfold State.writeOwnSequence
  split
  · exact .of_eq rfl rfl
  · rename_i r found
    have stored := (lookup_known found).1
    exact .record h stored rfl rfl rfl rfl (h.nodes r stored).2.2.1

theorem replaceOwnLinks_nodes (s : State) (es : List LinkEntry) : (s.replaceOwnLinks es).tv.nodes = s.tv.nodes := rfl

theorem replaceOwnLinks_links (s : State) (es : List LinkEntry) : (s.replaceOwnLinks es).tv.links =
    reverifiedLinks s.ownId s.tv.nodes (storeLinks s.ownId es (dropLinks s.ownId s.tv.links)) := rfl

theorem replaceOwnLinks_links_of {node : Nat} (own : s.ownId = node) (es : List LinkEntry) :
    (s.replaceOwnLinks es).tv.links = reverifiedLinks node s.tv.nodes (storeLinks node es (dropLinks node s.tv.links)) := by
  rw [replaceOwnLinks_links, own]

/-- The own link set is replaced in the places kept for it (R24). -/
theorem Views.replaceOwnLinks (h : s.ViewForm) (known : hasNode s.tv.nodes s.ownId = true) {es : List LinkEntry}
    (inRange : ∀ e ∈ es, e.inRange) : s.Views (s.replaceOwnLinks es) := by
  obtain ⟨r, stored, id⟩ := hasNode_iff.1 known
  have change := ViewChange.linkSet (own := s.ownId) (nodes := s.tv.nodes) (links := s.tv.links) r es
    (h.tables.sound r stored) (h.nodes r stored).2.2.1 (.inl (by rw [id]; exact known)) inRange (.inl id)
  rw [Table.put_of_mem h.nodesSorted stored, id] at change
  exact change

theorem rebuild_nodes (s : State) : s.rebuild.tv.nodes = s.tv.nodes := by
  unfold State.rebuild
  rw [(Work.contentReport _).tv, (Work.checkSuperseded _ _).nodes, replaceOwnLinks_nodes]

theorem rebuild_links (s : State) : s.rebuild.tv.links = (s.replaceOwnLinks s.ownLinkSet).tv.links := by
  unfold State.rebuild
  rw [(Work.contentReport _).tv, (Work.checkSuperseded _ _).links]

theorem ownStored_nodes {v : Identity} (identity : s.sc.identity = some v) : s.ownStored.tv.nodes = Table.put NodeRecord.id
    ⟨v.nodeId, v.profile, v.transit, s.tv.counter.setWidth 16, 0, true, 0⟩ s.tv.nodes := by
  unfold State.ownStored State.insertOwn
  rw [show s.joinAds.sc.identity = some v from identity]
  rfl

theorem ownStored_links {v : Identity} (identity : s.sc.identity = some v) : s.ownStored.tv.links =
    reverifiedLinks v.nodeId s.ownStored.tv.nodes (storeLinks v.nodeId s.ownLinkSet (dropLinks v.nodeId s.tv.links)) := by
  have own (u : State) (sc : u.sc = s.sc) : u.ownId = v.nodeId := by rw [State.ownId, sc, identity]; rfl
  rw [ownStored_nodes identity]
  unfold State.ownStored State.insertOwn
  rw [show s.joinAds.sc.identity = some v from identity]
  dsimp only
  refine (replaceOwnLinks_links_of (own _ ?_) _).trans ?_
  · rfl
  · rfl

/-- The own record and link set are stored at JOIN (R23). -/
theorem Views.ownStored (h : s.ViewForm) (ranges : s.Ranges) {v : Identity} (identity : s.sc.identity = some v)
    (room : s.tv.nodes = []) : s.Views s.ownStored ∧ hasNode s.ownStored.tv.nodes s.ownId = true := by
  have own : s.ownId = v.nodeId := by rw [State.ownId, identity]; rfl
  obtain ⟨least, most, profile, -⟩ := ranges.identity v identity
  constructor
  · unfold State.Views
    rw [ownStored_links identity, ownStored_nodes identity]
    refine .linkSet ⟨v.nodeId, v.profile, v.transit, _, 0, true, 0⟩ _ ⟨?_, profile, Nat.zero_le _, ?_⟩ (Nat.zero_le _)
      (.inr (by rw [room]; decide)) (ownLinkSet_inRange ranges.ports) (.inl own.symm)
    · simp only [validNode, Bool.and_eq_true, decide_eq_true_eq]
      exact ⟨least, most⟩
    · rw [own, beq_self_eq_true]
  · rw [ownStored_nodes identity, hasNode_put h.nodesSorted, own, beq_self_eq_true, Bool.or_true]

/-! ### Aging (R34) -/

/-- The view after the records of `l` are purged, each in its turn. -/
theorem purges_tables {l : List NodeRecord} (h : ViewTables s.ownId (l.map NodeRecord.id) s.tv.nodes s.tv.links)
    (peers : ∀ r ∈ l, r.id ≠ s.ownId) :
    ViewTables s.ownId [] (l.foldl (fun s r => s.purge r.id) s).tv.nodes (l.foldl (fun s r => s.purge r.id) s).tv.links ∧
    (Verifies s.tv.nodes s.tv.links → Verifies (l.foldl (fun s r => s.purge r.id) s).tv.nodes
      (l.foldl (fun s r => s.purge r.id) s).tv.links) ∧
    hasNode (l.foldl (fun s r => s.purge r.id) s).tv.nodes s.ownId = hasNode s.tv.nodes s.ownId := by
  induction l generalizing s with
  | nil => exact ⟨h, id, rfl⟩
  | cons r l ih =>
    obtain ⟨peer, peers⟩ := List.forall_mem_cons.1 peers
    have own : (s.purge r.id).ownId = s.ownId := by rw [State.ownId, (Work.purge s r.id).sc]; rfl
    have next : ViewTables (s.purge r.id).ownId (l.map NodeRecord.id) (s.purge r.id).tv.nodes (s.purge r.id).tv.links := by
      rw [own, purge_nodes, purge_links]
      exact h.purge
    obtain ⟨form, verifies, known⟩ := ih next (by rw [own]; exact peers)
    rw [own] at form known
    refine ⟨form, fun before => verifies ?_, known.trans ?_⟩
    · rw [purge_nodes, purge_links]
      exact h.verifies_purge before r.id
    · rw [purge_nodes, hasNode_erase, bne_iff_ne.2 (Ne.symm peer), Bool.and_true]

theorem ageView_tables (h : s.ViewForm) : ViewTables s.ownId [] s.ageView.tv.nodes s.ageView.tv.links ∧
    (Verifies s.tv.nodes s.tv.links → Verifies s.ageView.tv.nodes s.ageView.tv.links) ∧
    hasNode s.ageView.tv.nodes s.ownId = hasNode s.tv.nodes s.ownId := by
  have older (n : Nat) : hasNode (s.tv.nodes.map NodeRecord.older) n = hasNode s.tv.nodes n :=
    hasNode_map (fun r => by unfold NodeRecord.older; split <;> rfl) n
  unfold State.ageView
  split
  · exact ⟨h.tables, id, rfl⟩
  · dsimp only
    have aged := h.tables.older
    obtain ⟨form, verifies, known⟩ := purges_tables (s := { s with tv.nodes := s.tv.nodes.map NodeRecord.older }) aged
      fun r mem => by
        obtain ⟨stored, old⟩ := List.mem_filter.1 mem
        obtain ⟨-, -, -, own⟩ := aged.sound r stored
        rw [Bool.and_eq_true, Bool.not_eq_true', own] at old
        exact ne_of_beq_false old.1
    exact ⟨form, fun before => verifies (before.congr older), known.trans (older _)⟩

/-! ### Each operation on the view keeps its form and its verification -/

/-- `t` has the view that an event, or a request, makes of that of `s`: one operation with the own record in place, an
aged view, or a cleared one. -/
inductive Charts (s t : State) : Prop
  | views (views : s.Views t) (own : t.ownId = s.ownId)
      (joined : t.sc.station.joined = true → s.sc.station.joined = true ∨ hasNode t.tv.nodes s.ownId = true)
  | aged (nodes : t.tv.nodes = s.ageView.tv.nodes) (links : t.tv.links = s.ageView.tv.links) (sc : t.sc = s.sc)
  | cleared (nodes : t.tv.nodes = []) (links : t.tv.links = []) (unjoined : t.sc.station.joined = false)

theorem ViewForm.charts (h : s.ViewForm) (charts : s.Charts t) : t.ViewForm := by
  rw [viewForm_iff]
  obtain ⟨tables, known⟩ := viewForm_iff.1 h
  cases charts with
  | views views own joined =>
    rw [own]
    refine ⟨tables.change views, fun is => ?_⟩
    rcases joined is with before | now
    · exact tables.own_change views (known before)
    · exact now
  | aged nodes links sc =>
    obtain ⟨form, -, same⟩ := ageView_tables h
    have own : t.ownId = s.ownId := by rw [State.ownId, sc]; rfl
    rw [own, nodes, links, same, sc]
    exact ⟨form, known⟩
  | cleared nodes links unjoined =>
    rw [nodes, links, unjoined]
    exact ⟨⟨List.Pairwise.nil, List.Pairwise.nil, Nat.zero_le _, Nat.zero_le _, nofun, nofun, nofun, nofun⟩, nofun⟩

theorem verifies_charts (h : s.ViewForm) (verifies : Verifies s.tv.nodes s.tv.links) (charts : s.Charts t) :
    Verifies t.tv.nodes t.tv.links := by
  cases charts with
  | views views => exact h.tables.verifies_change verifies views
  | aged nodes links =>
    rw [nodes, links]
    exact (ageView_tables h).2.1 verifies
  | cleared nodes links =>
    rw [nodes, links]
    nofun

theorem Charts.of_eq (nodes : t.tv.nodes = s.tv.nodes) (links : t.tv.links = s.tv.links)
    (identity : t.sc.identity = s.sc.identity) (joined : t.sc.station.joined = true → s.sc.station.joined = true) :
    s.Charts t :=
  .views (.of_eq nodes links) (by rw [State.ownId, identity]; rfl) fun is => .inl (joined is)

theorem Charts.of_holds (work : Work outsideHolds s t) : s.Charts t :=
  .of_eq work.nodes work.links (by rw [work.blocks_of_holds.sc]) (by rw [work.blocks_of_holds.sc]; exact id)

theorem Charts.of_advert (work : Work outsideAdvert s t) : s.Charts t :=
  .of_eq (by rw [work.tv]) (by rw [work.tv]) (by rw [work.blocks_of_advert.sc])
    (by rw [work.blocks_of_advert.sc]; exact id)

theorem Charts.of_views (views : s.Views t) (sc : t.sc = s.sc) : s.Charts t :=
  .views views (by rw [State.ownId, sc]; rfl) fun is => .inl (by rw [← sc]; exact is)

theorem BlockPart.charts (h : s.ViewForm) (part : s.BlockPart t) : s.Charts t := by
  cases part with
  | holdSent i k => exact .of_holds (.holdSent s i k)
  | holdDropped i k => exact .of_holds (.holdDropped s i k)
  | dueCheck => exact .of_advert (.dueCheck s)
  | endIsolation => exact .of_advert (.endIsolation s)
  | frame k origin body valid other =>
    have advert : s.Charts (s.advertFrame origin body) :=
      .of_views (.advertFrame h valid other body) (Work.advertFrame s origin body).sc
    unfold State.dispatchFrame
    split
    · exact advert
    · exact advert
    · exact .of_advert (.solicitFrame s)
    · exact .of_holds (.holdFrame s _ origin body)
    · exact .of_holds (.holdFrame s _ origin body)
    · exact .of_holds (.holdFrame s _ origin body)
    · exact .of_holds (.releaseFrame s origin body)
  | ageView => exact .aged rfl rfl (Work.ageView s).sc
  | ownSequence => exact .of_views (.writeOwnSequence h) (Work.writeOwnSequence s).sc
  | restateAll => exact .of_holds (.restateAll s)
  | endContest i => exact .of_holds (.endContest s i)
  | expireHold i => exact .of_holds (.expireHold s i)
  | peerGone x => exact .of_holds (.removeHold s _)

theorem Charts.finishLeave (s : State) (status : Status) (h : u.finishLeave status = t) : s.Charts t := by
  rw [finishLeave_eq, completeLeaving_eq] at h
  subst h
  exact .cleared rfl rfl rfl

theorem silenced_tv (s : State) : s.silenced.tv = s.tv := by
  unfold State.silenced
  rw [cutAttempt_eq, State.setMuted_eq]
  rfl

theorem enterMuted_nodes (s : State) : s.enterMuted.tv.nodes = s.tv.nodes := by
  have kept (u : State) : u.advertDiscarded.tv = u.tv := rfl
  rw [enterMuted_eq, kept, (Work.muteHolds _).nodes, silenced_tv]

theorem enterMuted_links (s : State) : s.enterMuted.tv.links = s.tv.links := by
  have kept (u : State) : u.advertDiscarded.tv = u.tv := rfl
  rw [enterMuted_eq, kept, (Work.muteHolds _).links, silenced_tv]

theorem completeJoin_tv (s : State) (status : Status) : (s.completeJoin status).tv = s.tv := by
  rw [completeJoin_eq]

theorem Charts.duplicateReport (s : State) : s.Charts s.duplicateReport := by
  have muted (joined : s.sc.station.joined = true) : s.Charts s.enterMuted :=
    .of_eq (enterMuted_nodes s) (enterMuted_links s) (by rw [enterMuted_sc]) fun _ => joined
  have completed (joined : s.sc.station.joined = true) (status : Status) : s.Charts (s.enterMuted.completeJoin status) :=
    .of_eq (by rw [completeJoin_tv, enterMuted_nodes]) (by rw [completeJoin_tv, enterMuted_links])
      (by rw [completeJoin_sc, enterMuted_sc]) fun _ => joined
  unfold State.duplicateReport
  split
  · rename_i station
    exact completed (by rw [station]; rfl) _
  · rename_i station
    exact completed (by rw [station]; rfl) _
  · rename_i station
    exact muted (by rw [station]; rfl)
  · exact .finishLeave s _ rfl
  · exact .of_eq rfl rfl rfl id

theorem createHold_tables (s : State) (i : Fin 8) (tag : Tag) (priority start width : Nat) (links : List LinkKey) :
    (s.createHold i tag priority start width links).tv.nodes = s.tv.nodes ∧
      (s.createHold i tag priority start width links).tv.links = s.tv.links ∧
      (s.createHold i tag priority start width links).sc = s.sc := by
  rw [createHold_eq, State.makeDue_eq]
  exact ⟨rfl, rfl, rfl⟩

theorem Charts.searched (step : s.Searched t) : s.Charts t := by
  cases step with
  | unchanged | start | step | ended => exact .of_eq rfl rfl rfl id
  | aborted c =>
    unfold State.abortSearch
    rw [completeAbort_eq]
    exact .of_eq rfl rfl rfl id
  | held c r i done =>
    obtain ⟨nodes, links, sc⟩ := createHold_tables s i c.request.tag c.request.priority r.window c.request.width
      (r.path.map Prod.fst)
    generalize s.createHold i c.request.tag c.request.priority r.window c.request.width (r.path.map Prod.fst) = u
      at nodes links sc
    exact .of_eq nodes links (congrArg Sc.identity sc) (by rw [show (u.endSearch done).sc = s.sc from sc]; exact id)

theorem Part.charts (h : s.ViewForm) (part : s.Part t) : s.Charts t := by
  cases part with
  | block joined work => exact work.charts h
  | left leaving free status => exact .finishLeave s _ rfl
  | duplicate => exact .duplicateReport s
  | search step => exact .searched step
  | isolate =>
    rw [State.setIsolated_eq]
    exact .of_eq rfl rfl rfl id
  | start p may =>
    rcases s.startAttempt_cases p with same | ⟨e, body, mark, entry, started⟩
    · rw [same]
      exact .of_eq rfl rfl rfl id
    · rw [started]
      exact .of_eq rfl rfl rfl id
  | announced joined =>
    have counted : s.countAnnounced.tv = s.tv ∧ s.countAnnounced.sc.identity = s.sc.identity := by
      unfold State.countAnnounced
      split
      · dsimp only
        split
        · unfold State.enterOperating
          rw [completeJoin_eq]
          exact ⟨rfl, rfl⟩
        · exact ⟨rfl, rfl⟩
      · exact ⟨rfl, rfl⟩
    exact .of_eq (by rw [counted.1]) (by rw [counted.1]) counted.2 fun _ => joined
  | tickDebt =>
    unfold State.tickDebt
    split
    · exact .of_eq rfl rfl rfl id
    · split <;> exact .of_eq rfl rfl rfl id
  | listen joined =>
    unfold State.countListen
    split
    · dsimp only
      split
      · exact .of_eq rfl rfl rfl fun _ => joined
      · exact .of_eq rfl rfl rfl id
    · exact .of_eq rfl rfl rfl id
  | _ => exact .of_eq rfl rfl rfl id

theorem leaves_tables (s : State) : s.leaves.tv.nodes = s.tv.nodes ∧ s.leaves.tv.links = s.tv.links := by
  have settled : (s.completeJoin .aborted).flushPaths.leaveHolds.tv.nodes = s.tv.nodes ∧
      (s.completeJoin .aborted).flushPaths.leaveHolds.tv.links = s.tv.links := by
    rw [(Work.leaveHolds _).nodes, (Work.leaveHolds _).links, flushPaths_eq, completeJoin_eq]
    exact ⟨rfl, rfl⟩
  unfold State.leaves
  generalize (s.completeJoin .aborted).flushPaths.leaveHolds = u at settled
  rw [State.makeDue_eq, State.withdrawEntry_eq]
  exact settled

theorem Owned.charts (h : s.ViewForm) (agree : s.Agree) (ranges : s.Ranges) (own : s.Owned t) : s.Charts t := by
  cases own with
  | identity node profile transit ports done station =>
    obtain ⟨nodes, links, -⟩ := agree.notJoined (by rw [station]; rfl)
    exact .cleared nodes links rfl
  | timing v done station => exact .of_eq rfl rfl rfl nofun
  | join tag station =>
    obtain ⟨room, -⟩ := agree.notJoined (by rw [station]; rfl)
    have configured : s.sc.identity ≠ none := fun none => by
      have := agree.identity.1 none
      rw [station] at this
      cases this
    obtain ⟨v, identity⟩ := Option.ne_none_iff_exists'.1 configured
    obtain ⟨views, known⟩ := Views.ownStored h ranges identity room
    have joined : (s.joined tag).tv = s.ownStored.tv := rfl
    have sc := joined_sc s tag
    rw [ownJoin_configured station, State.makeDue_eq]
    generalize s.joined tag = u at joined sc
    refine .views (views.then (by rw [← joined]; rfl) (by rw [← joined]; rfl)) ?_ fun _ => .inr ?_
    · show (u.sc.identity.map Identity.nodeId).getD 0 = _
      rw [sc]
      rfl
    · show hasNode u.tv.nodes s.ownId = true
      rw [joined]
      exact known
  | leave tag station =>
    obtain ⟨nodes, links⟩ := leaves_tables s
    have sc := leaves_sc s
    rw [beginLeave_eq]
    generalize s.leaves = u at nodes links sc
    refine .of_eq nodes links ?_ fun _ => ?_
    · show u.sc.identity = _
      rw [sc]
    · rcases station with is | is | is <;> rw [is] <;> rfl
  | leaveMuted tag station =>
    rw [leaveMuted_eq]
    exact .finishLeave s _ rfl
  | port p r done fitted configured inRange =>
    have after {u : State} (charts : s.Charts u) : s.Charts (u.post done) := by
      cases charts with
      | views views own joined => exact .views views own joined
      | aged nodes links sc => exact .aged nodes links sc
      | cleared nodes links unjoined => exact .cleared nodes links unjoined
    refine after ?_
    rcases changePort_cases s p r with ⟨same, -⟩ | ⟨written, -⟩ | ⟨rebuilt, joined⟩
    · rw [same]
      exact .of_eq rfl rfl rfl id
    · rw [written]
      exact .of_eq rfl rfl rfl id
    · rw [rebuilt]
      have ports : ∀ e ∈ (s.setPort p r).ownLinkSet, e.inRange := ownLinkSet_inRange
        (forall_setIfInBounds (P := PortRecord.inRange) ranges.ports p (inRange (ranges.port fitted)))
      have views := Views.replaceOwnLinks (s := s.setPort p r) (h.of_eq rfl rfl) (h.own joined) ports
      exact .of_views (views.then (rebuild_nodes _) (rebuild_links _)) (Work.rebuild _).sc
  | commitDue i n t tag slot =>
    rw [State.makeDue_eq]
    exact .of_eq rfl rfl rfl id
  | release i sub n t done slot =>
    have work := Work.releaseLive s i sub n t
    exact .of_eq work.nodes work.links (congrArg Sc.identity work.blocks_of_holds.sc)
      (by rw [show (State.post done _).sc = s.sc from work.blocks_of_holds.sc]; exact id)
  | block k m done =>
    have written : (s.setBlock k m).tv.nodes = s.tv.nodes ∧ (s.setBlock k m).tv.links = s.tv.links ∧
        (s.setBlock k m).sc = s.sc := by
      unfold State.setBlock
      split <;> exact ⟨rfl, rfl, rfl⟩
    obtain ⟨nodes, links, sc⟩ := written
    exact .of_eq nodes links (congrArg Sc.identity sc) (by rw [show (State.post done _).sc = s.sc from sc]; exact id)
  | _ => exact .of_eq rfl rfl rfl id

theorem Charts.of_inner (same : t.inner = s.inner) : s.Charts t := by
  have as {α : Type} (f : State → α) : f t.inner = f s.inner := congrArg f same
  exact .of_eq (as (fun x => x.tv.nodes)) (as (fun x => x.tv.links)) (as (fun x => x.sc.identity))
    fun joined => by rw [← joined]; exact (as (fun x => x.sc.station.joined)).symm

end State

open State

/-- What the form of the view rests on, and what `more` asks of the view beside it, every step keeps, where each operation
on the view keeps it. -/
theorem view_step_keeps {more : List NodeRecord → List LinkRecord → Prop} (fresh : more [] [])
    (keeps : ∀ {s t : State}, s.ViewForm → s.Charts t → more s.tv.nodes s.tv.links → more t.tv.nodes t.tv.links)
    {s t : State} (agree : s.Agree) (ranges : s.Ranges) (form : s.ViewForm) (h : more s.tv.nodes s.tv.links)
    (ran : step s = .next t) : t.ViewForm ∧ more t.tv.nodes t.tv.links := by
  have charted {s t : State} (h : s.ViewForm ∧ more s.tv.nodes s.tv.links) (charts : s.Charts t) :
      t.ViewForm ∧ more t.tv.nodes t.tv.links := ⟨h.1.charts charts, keeps h.1 charts h.2⟩
  refine (step_keeps (P := fun s => s.Agree ∧ s.Ranges ∧ s.ViewForm ∧ more s.tv.nodes s.tv.links) ?inner ?reset ?fetch
    ?request ?event ?idle ⟨agree, ranges, form, h⟩ ran).2.2
  case inner =>
    exact fun same ⟨agree, ranges, view⟩ => ⟨agree.of_inner same, ranges.of_inner same, charted view (.of_inner same)⟩
  case reset => exact ⟨reset_agree, reset_ranges, reset_viewForm, fresh⟩
  case fetch => exact fun n ⟨agree, ranges, view⟩ => ⟨agree.of_clp _, ranges.of_eq rfl, charted view (.of_eq rfl rfl rfl id)⟩
  case request =>
    rintro c own s owner takes ⟨agree, ranges, view⟩
    have owned := owned_of_requestOwner owner s.accepted
    have ranges' : s.accepted.Ranges := ranges.of_eq rfl
    have view' := charted (t := s.accepted) view (.of_eq rfl rfl rfl id)
    exact ⟨agree.accepted.owned owned, ranges'.owned agree.accepted owned,
      charted view' (owned.charts view'.1 agree.accepted ranges')⟩
  case event =>
    exact fun worked h => event_keeps
      (P := fun s => s.Agree ∧ s.Ranges ∧ s.ViewForm ∧ more s.tv.nodes s.tv.links) And.left
      (fun part ⟨agree, ranges, view⟩ => ⟨agree.part part, ranges.part part, charted view (part.charts view.1)⟩) worked h
  case idle =>
    exact fun ⟨agree, ranges, view⟩ => ⟨agree.elapse 1, ranges.of_eq rfl, charted view (.of_eq rfl rfl rfl id)⟩

/-- Settles O33, operation by operation on the view. -/
theorem everyStepKeepsViewForm : Obligations.EveryStepKeepsViewForm := by
  unfold Obligations.EveryStepKeepsViewForm
  intro s t agree ranges form ran
  exact (view_step_keeps (more := fun _ _ => True) trivial (fun _ _ => id) agree ranges form trivial ran).1

/-- Settles O34: a node's links are verified anew wherever its record or its links change. -/
theorem everyStepKeepsVerification : Obligations.EveryStepKeepsVerification := by
  unfold Obligations.EveryStepKeepsVerification
  intro s t agree ranges form verified ran
  obtain ⟨form', verifies⟩ := view_step_keeps (more := Verifies) nofun (fun form charts h => verifies_charts form h charts)
    agree ranges form (form.tables.verified_iff.2 verified) ran
  exact form'.tables.verified_iff.1 verifies

end Sys2Proof.Machine

namespace Sys2Proof.Machine

/-! The hold table and the slots as tables: their form (R88, R90, R104), and what keeps it. -/

theorem Hold.overlaps_comm (a b : Hold) : a.overlaps b = b.overlaps a := by
  have half {a b : Hold} (h : a.overlaps b = true) : b.overlaps a = true := by
    obtain ⟨⟨k, mine, yours⟩, n, w⟩ := (Hold.overlaps_iff a b).1 h
    exact (Hold.overlaps_iff b a).2 ⟨⟨k, yours, mine⟩, n, w.2.2.1, w.2.2.2, w.1, w.2.1⟩
  exact Bool.eq_iff_iff.2 ⟨half, half⟩

/-- The form of the hold table and the slots; `known` tells the origins a peer record may have. -/
structure HoldTables (own : Nat) (known : Nat → Bool) (holds : List Hold) (slot : Fin 8 → Slot) : Prop where
  sorted : Table.Sorted Hold.code holds
  apart : ∀ a ∈ holds, ∀ b ∈ holds, a.code ≠ b.code → a.overlaps b = false
  side : ∀ h ∈ holds, h.own = (h.origin == own)
  slotted : ∀ h ∈ holds, h.own = true → ∃ i, (slot i).isLive = true ∧ (slot i).number = some h.number
  record : ∀ i, (slot i).isLive = true → ∃ h ∈ holds, h.own = true ∧ (slot i).number = some h.number
  numbers : ∀ i j, (slot i).number ≠ none → (slot i).number = (slot j).number → i = j
  peers : holds.countP (fun h => !h.own) ≤ 40
  known : ∀ h ∈ holds, h.own = false → known h.origin = true
  committed : ∀ h ∈ holds, h.own = true → ∀ i, (slot i).number = some h.number → h.committed = (slot i).isCommitted

theorem State.holdsOk_iff {s : State} : s.HoldsOk ↔ HoldTables s.ownId s.knows s.hu.holds s.slot := by
  have count : s.hu.holds.countP (fun h => !h.own) = s.peerHolds := List.countP_eq_length_filter
  constructor
  · intro h
    refine ⟨h.sorted, fun a ma b mb ne => ?_, h.own, h.slot, h.record, h.numbers, count ▸ h.peers, h.known, h.committed⟩
    have : Std.Symm fun a b : Hold => a.overlaps b = false := ⟨fun a b apart => by rw [Hold.overlaps_comm]; exact apart⟩
    exact h.disjoint.forall ma mb fun same => ne (congrArg Hold.code same)
  · intro h
    refine ⟨h.sorted, ?_, h.side, h.slotted, h.record, h.numbers, count ▸ h.peers, h.known, h.committed⟩
    have distinct : s.hu.holds.Nodup := List.Pairwise.imp (fun lt same => absurd (congrArg Hold.code same) (by omega)) h.sorted
    exact distinct.pairwise_of_forall_ne fun a ma b mb ne => h.apart a ma b mb fun same => ne (h.sorted.inj ma mb same)

namespace HoldTables

variable {own : Nat} {known : Nat → Bool} {holds : List Hold} {slot slot' : Fin 8 → Slot}

/-- An own record has the own origin (R88). -/
theorem origin_eq (h : HoldTables own known holds slot) {x : Hold} (stored : x ∈ holds) (mine : x.own = true) :
    x.origin = own := by
  have := h.side x stored
  rw [mine] at this
  exact (beq_iff_eq.1 this.symm)

/-- A peer record has another origin. -/
theorem origin_ne (h : HoldTables own known holds slot) {x : Hold} (stored : x ∈ holds) (peer : x.own = false) :
    x.origin ≠ own := by
  have := h.side x stored
  rw [peer] at this
  exact ne_of_beq_false this.symm

/-- Two own records of one number are one. -/
theorem own_inj (h : HoldTables own known holds slot) {a b : Hold} (ma : a ∈ holds) (mb : b ∈ holds) (oa : a.own = true)
    (ob : b.own = true) (number : a.number = b.number) : a = b :=
  h.sorted.inj ma mb (by rw [Hold.code, Hold.code, h.origin_eq ma oa, h.origin_eq mb ob, number])

/-- Other origins become known, or cease to be where no peer record has them. -/
theorem reknown {known' : Nat → Bool} (h : HoldTables own known holds slot)
    (still : ∀ x ∈ holds, x.own = false → known x.origin = true → known' x.origin = true) :
    HoldTables own known' holds slot :=
  { h with known := fun x stored peer => still x stored peer (h.known x stored peer) }

/-- Slots change within what the records show of them, and those that are not LIVE may lose their number. -/
theorem reslot (h : HoldTables own known holds slot)
    (same : ∀ i, (slot' i).isLive = (slot i).isLive ∧ (slot' i).isCommitted = (slot i).isCommitted ∧
      ((slot' i).number = (slot i).number ∨ (slot' i).isLive = false ∧ (slot' i).number = none)) :
    HoldTables own known holds slot' := by
  have back {i : Fin 8} (numbered : (slot' i).number ≠ none) : (slot' i).number = (slot i).number := by
    obtain ⟨-, -, kept | ⟨-, none⟩⟩ := same i
    · exact kept
    · exact absurd none numbered
  refine ⟨h.sorted, h.apart, h.side, fun x stored mine => ?_, fun i live => ?_, fun i j numbered eq => ?_, h.peers, h.known,
    fun x stored mine i number => ?_⟩
  · obtain ⟨i, live, number⟩ := h.slotted x stored mine
    obtain ⟨live', -, kept | ⟨dead, -⟩⟩ := same i
    · exact ⟨i, live'.trans live, kept.trans number⟩
    · rw [live', live] at dead
      cases dead
  · obtain ⟨live', -, kept | ⟨dead, -⟩⟩ := same i
    · rw [kept]
      exact h.record i (live' ▸ live)
    · rw [live] at dead
      cases dead
  · have numbered' : (slot' j).number ≠ none := eq ▸ numbered
    refine h.numbers i j (by rw [← back numbered]; exact numbered) ?_
    rw [← back numbered, ← back numbered', eq]
  · have numbered : (slot' i).number ≠ none := by rw [number]; nofun
    rw [(same i).2.1]
    exact h.committed x stored mine i (by rw [← back numbered]; exact number)

/-- A peer record goes (R108, R109, R110). -/
theorem erasePeer (h : HoldTables own known holds slot) {code : Nat} (peer : ∀ x ∈ holds, x.code = code → x.own = false) :
    HoldTables own known (Table.erase Hold.code code holds) slot := by
  have sub {x : Hold} (mem : x ∈ Table.erase Hold.code code holds) : x ∈ holds := Table.mem_of_mem_erase mem
  refine ⟨Table.sorted_erase h.sorted _, fun a ma b mb => h.apart a (sub ma) b (sub mb), fun x mem => h.side x (sub mem),
    fun x mem => h.slotted x (sub mem), fun i live => ?_, h.numbers,
    (List.Sublist.countP_le List.filter_sublist).trans h.peers, fun x mem => h.known x (sub mem),
    fun x mem => h.committed x (sub mem)⟩
  obtain ⟨x, stored, mine, number⟩ := h.record i live
  refine ⟨x, List.mem_filter.2 ⟨stored, bne_iff_ne.2 fun same => ?_⟩, mine, number⟩
  rw [peer x stored same] at mine
  cases mine

/-- An own record goes, and its slot is LIVE no more (R90). -/
theorem eraseOwn (h : HoldTables own known holds slot) {i : Fin 8} {n : BitVec 8}
    (number : (slot i).number = some n) (others : ∀ j, j ≠ i → slot' j = slot j) (dead : (slot' i).isLive = false)
    (kept : (slot' i).number = some n ∨ (slot' i).number = none) :
    HoldTables own known (Table.erase Hold.code (holdCode own n) holds) slot' := by
  have sub {x : Hold} (mem : x ∈ Table.erase Hold.code (holdCode own n) holds) : x ∈ holds := Table.mem_of_mem_erase mem
  have differs {x : Hold} (mem : x ∈ Table.erase Hold.code (holdCode own n) holds) (mine : x.own = true) : x.number ≠ n := by
    intro same
    obtain ⟨stored, ne⟩ := List.mem_filter.1 mem
    rw [bne_iff_ne, Hold.code, h.origin_eq stored mine, same] at ne
    exact ne rfl
  have back {j : Fin 8} (numbered : (slot' j).number ≠ none) : (slot' j).number = (slot j).number := by
    by_cases same : j = i
    · subst same
      rw [kept.resolve_right numbered, number]
    · rw [others j same]
  refine ⟨Table.sorted_erase h.sorted _, fun a ma b mb => h.apart a (sub ma) b (sub mb), fun x mem => h.side x (sub mem),
    fun x mem mine => ?_, fun j live => ?_, fun j k numbered eq => ?_,
    (List.Sublist.countP_le List.filter_sublist).trans h.peers, fun x mem => h.known x (sub mem),
    fun x mem mine j numbered => ?_⟩
  · obtain ⟨j, live, numbered⟩ := h.slotted x (sub mem) mine
    have other : j ≠ i := by
      rintro rfl
      rw [number] at numbered
      exact differs mem mine (Option.some.inj numbered).symm
    exact ⟨j, by rw [others j other]; exact live, by rw [others j other]; exact numbered⟩
  · have other : j ≠ i := by
      rintro rfl
      rw [live] at dead
      cases dead
    rw [others j other] at live ⊢
    obtain ⟨x, stored, mine, numbered⟩ := h.record j live
    refine ⟨x, List.mem_filter.2 ⟨stored, bne_iff_ne.2 fun same => other ?_⟩, mine, numbered⟩
    have is := (holdCode_inj (show holdCode x.origin x.number = holdCode own n from same)).2
    exact h.numbers j i (by rw [numbered]; nofun) (by rw [numbered, number, is])
  · have numbered' : (slot' k).number ≠ none := eq ▸ numbered
    refine h.numbers j k (by rw [← back numbered]; exact numbered) ?_
    rw [← back numbered, ← back numbered', eq]
  · have old : (slot j).number = some x.number := by
      rw [← back (by rw [numbered]; nofun)]
      exact numbered
    have other : j ≠ i := by
      rintro rfl
      rw [number] at old
      exact differs mem mine (Option.some.inj old).symm
    rw [others j other]
    exact h.committed x (sub mem) mine j old

theorem countP_put_of_mem {x y : Hold} (sorted : Table.Sorted Hold.code holds) (stored : x ∈ holds) (code : y.code = x.code)
    (side : y.own = x.own) :
    (Table.put Hold.code y holds).countP (fun h => !h.own) = holds.countP (fun h => !h.own) := by
  rw [Table.put_eq_map sorted stored code.symm, List.countP_map]
  refine List.countP_congr fun z mem => ?_
  rw [Function.comp_apply]
  split
  · rename_i same
    rw [side, sorted.inj mem stored (same.trans code)]
  · rfl

/-- A record changes in place: its flags and its lifetime, and an own one with its slot (R94, R99, R105). -/
theorem rewrite (h : HoldTables own known holds slot) {x y : Hold} (stored : x ∈ holds) (code : y.code = x.code)
    (side : y.own = x.own) (window : y.start = x.start ∧ y.width = x.width ∧ y.links = x.links)
    (same : ∀ i, (slot' i).isLive = (slot i).isLive ∧ (slot' i).number = (slot i).number)
    (others : ∀ i, x.own = false ∨ (slot i).number ≠ some x.number → (slot' i).isCommitted = (slot i).isCommitted)
    (committed : y.own = true → ∀ i, (slot i).number = some y.number → y.committed = (slot' i).isCommitted) :
    HoldTables own known (Table.put Hold.code y holds) slot' := by
  obtain ⟨origin, number⟩ := holdCode_inj (show holdCode y.origin y.number = holdCode x.origin x.number from code)
  have mem {z : Hold} : z ∈ Table.put Hold.code y holds ↔ z = y ∨ z ∈ holds ∧ z.code ≠ y.code := Table.mem_put h.sorted
  have meets (z : Hold) : y.overlaps z = x.overlaps z := by
    obtain ⟨start, width, links⟩ := window
    rw [Hold.overlaps, start, width, links]
    rfl
  have apart {z : Hold} (old : z ∈ holds) (ne : z.code ≠ y.code) : y.overlaps z = false := by
    rw [meets]
    exact h.apart x stored z old (by rw [← code]; exact Ne.symm ne)
  refine ⟨Table.sorted_put h.sorted y, fun a ma b mb ne => ?_, ?_, ?_, fun i live => ?_, fun i j numbered eq => ?_,
    (countP_put_of_mem h.sorted stored code side).trans_le h.peers, ?_, ?_⟩
  · rcases mem.1 ma with rfl | ⟨oldA, neA⟩ <;> rcases mem.1 mb with rfl | ⟨oldB, neB⟩
    · exact absurd rfl ne
    · exact apart oldB neB
    · rw [Hold.overlaps_comm]
      exact apart oldA neA
    · exact h.apart a oldA b oldB ne
  · exact Table.forall_put h.sorted h.side (by rw [side, origin]; exact h.side x stored)
  · refine Table.forall_put h.sorted (fun z old mine => ?_) fun mine => ?_
    · obtain ⟨i, live, numbered⟩ := h.slotted z old mine
      exact ⟨i, (same i).1.trans live, (same i).2.trans numbered⟩
    · obtain ⟨i, live, numbered⟩ := h.slotted x stored (by rw [← side]; exact mine)
      exact ⟨i, (same i).1.trans live, by rw [number]; exact (same i).2.trans numbered⟩
  · rw [(same i).2]
    obtain ⟨z, old, mine, numbered⟩ := h.record i ((same i).1 ▸ live)
    by_cases ne : z.code = y.code
    · have is : z = x := h.sorted.inj old stored (ne.trans code)
      subst is
      exact ⟨y, mem.2 (.inl rfl), by rw [side]; exact mine, by rw [number]; exact numbered⟩
    · exact ⟨z, mem.2 (.inr ⟨old, ne⟩), mine, numbered⟩
  · rw [(same i).2] at numbered eq
    rw [(same j).2] at eq
    exact h.numbers i j numbered eq
  · exact Table.forall_put h.sorted h.known (by rw [side, origin]; exact h.known x stored)
  · intro z now mine i numbered
    rw [(same i).2] at numbered
    rcases mem.1 now with rfl | ⟨old, ne⟩
    · exact committed mine i numbered
    · rw [others i ?_]
      · exact h.committed z old mine i numbered
      · by_contra both
        obtain ⟨own', number'⟩ := not_or.1 both
        rw [not_not.1 number'] at numbered
        refine ne ((congrArg Hold.code (h.own_inj old stored mine (by simpa using own') ?_)).trans code.symm)
        exact (Option.some.inj numbered).symm

/-- A peer record is new, of a known origin, where it overlaps nothing and finds room (R107). -/
theorem insertPeer (h : HoldTables own known holds slot) {y : Hold} (new : ∀ x ∈ holds, x.code ≠ y.code)
    (apart : ∀ x ∈ holds, x.overlaps y = false) (peer : y.own = false) (other : y.origin ≠ own)
    (room : holds.countP (fun h => !h.own) < 40) (origin : known y.origin = true) :
    HoldTables own known (Table.put Hold.code y holds) slot := by
  have mem {z : Hold} : z ∈ Table.put Hold.code y holds ↔ z = y ∨ z ∈ holds ∧ z.code ≠ y.code := Table.mem_put h.sorted
  have unowned {P : Prop} (mine : y.own = true) : P := by
    rw [peer] at mine
    cases mine
  refine ⟨Table.sorted_put h.sorted y, fun a ma b mb ne => ?_, ?_, ?_, fun i live => ?_, h.numbers, ?_, ?_, ?_⟩
  · rcases mem.1 ma with rfl | ⟨oldA, -⟩ <;> rcases mem.1 mb with rfl | ⟨oldB, -⟩
    · exact absurd rfl ne
    · rw [Hold.overlaps_comm]
      exact apart b oldB
    · exact apart a oldA
    · exact h.apart a oldA b oldB ne
  · exact Table.forall_put h.sorted h.side (by rw [peer, beq_false_of_ne other])
  · exact Table.forall_put h.sorted h.slotted unowned
  · obtain ⟨x, stored, mine, number⟩ := h.record i live
    exact ⟨x, mem.2 (.inr ⟨stored, new x stored⟩), mine, number⟩
  · have := Table.countP_put_le (key := Hold.code) y holds (fun h => !h.own)
    rw [peer, Bool.not_false, if_pos rfl] at this
    omega
  · exact Table.forall_put h.sorted h.known fun _ => origin
  · exact Table.forall_put h.sorted h.committed unowned

/-- An own record is new with its slot, under a number that no slot holds, where it overlaps nothing (R90, R92). -/
theorem insertOwn (h : HoldTables own known holds slot) {y : Hold} {i : Fin 8} (free : slot i = .free)
    (unused : ∀ j, (slot j).number ≠ some y.number) (apart : ∀ x ∈ holds, x.overlaps y = false) (mine : y.own = true)
    (origin : y.origin = own) (others : ∀ j, j ≠ i → slot' j = slot j) (live : (slot' i).isLive = true)
    (number : (slot' i).number = some y.number) (committed : y.committed = (slot' i).isCommitted) :
    HoldTables own known (Table.put Hold.code y holds) slot' := by
  have mem {z : Hold} : z ∈ Table.put Hold.code y holds ↔ z = y ∨ z ∈ holds ∧ z.code ≠ y.code := Table.mem_put h.sorted
  have numbered {x : Hold} (stored : x ∈ holds) (own' : x.own = true) : x.number ≠ y.number := by
    obtain ⟨j, -, held⟩ := h.slotted x stored own'
    intro same
    exact unused j (same ▸ held)
  have new {x : Hold} (stored : x ∈ holds) : x.code ≠ y.code := by
    intro same
    obtain ⟨origin', number'⟩ := holdCode_inj (show holdCode x.origin x.number = holdCode y.origin y.number from same)
    cases side : x.own with
    | true => exact numbered stored side number'
    | false => exact h.origin_ne stored side (origin'.trans origin)
  have filled {j : Fin 8} (taken : slot j ≠ .free) : slot' j = slot j := others j fun same => taken (same ▸ free)
  have peerless {P : Prop} (peer : y.own = false) : P := by
    rw [mine] at peer
    cases peer
  refine ⟨Table.sorted_put h.sorted y, fun a ma b mb ne => ?_, ?_, ?_, fun j live' => ?_, fun j k numbered' eq => ?_, ?_, ?_,
    ?_⟩
  · rcases mem.1 ma with rfl | ⟨oldA, -⟩ <;> rcases mem.1 mb with rfl | ⟨oldB, -⟩
    · exact absurd rfl ne
    · rw [Hold.overlaps_comm]
      exact apart b oldB
    · exact apart a oldA
    · exact h.apart a oldA b oldB ne
  · exact Table.forall_put h.sorted h.side (by rw [mine, origin, beq_self_eq_true])
  · refine Table.forall_put h.sorted (fun x stored own' => ?_) fun _ => ⟨i, live, number⟩
    obtain ⟨j, live', held⟩ := h.slotted x stored own'
    have same := filled (j := j) fun free => by rw [free] at live'; cases live'
    exact ⟨j, same ▸ live', same ▸ held⟩
  · by_cases same : j = i
    · rw [same, number]
      exact ⟨y, mem.2 (.inl rfl), mine, rfl⟩
    · rw [others j same] at live' ⊢
      obtain ⟨x, stored, own', held⟩ := h.record j live'
      exact ⟨x, mem.2 (.inr ⟨stored, new stored⟩), own', held⟩
  · by_cases atJ : j = i <;> by_cases atK : k = i
    · rw [atJ, atK]
    · rw [atJ, number, others k atK] at eq
      exact absurd eq.symm (unused k)
    · rw [atK, number, others j atJ] at eq
      exact absurd eq (unused j)
    · rw [others j atJ] at numbered' eq
      rw [others k atK] at eq
      exact h.numbers j k numbered' eq
  · have := Table.countP_put_le (key := Hold.code) y holds (fun h => !h.own)
    rw [mine, Bool.not_true, if_neg Bool.false_ne_true] at this
    exact this.trans h.peers
  · exact Table.forall_put h.sorted h.known peerless
  · refine Table.forall_put h.sorted (fun x stored own' j held => ?_) fun _ j held => ?_
    · by_cases same : j = i
      · rw [same, number] at held
        exact absurd (Option.some.inj held).symm (numbered stored own')
      · rw [others j same] at held ⊢
        exact h.committed x stored own' j held
    · by_cases same : j = i
      · rw [same]
        exact committed
      · rw [others j same] at held
        exact absurd held (unused j)

/-- An empty table with every slot free has the form. -/
theorem empty (free : ∀ i, slot i = .free) : HoldTables own known [] slot := by
  refine ⟨.nil, nofun, nofun, nofun, fun i live => ?_, fun i j numbered => ?_, Nat.zero_le 40, nofun, nofun⟩
  · rw [free] at live
    cases live
  · rw [free] at numbered
    exact absurd rfl numbered

end HoldTables

end Sys2Proof.Machine

namespace Sys2Proof.Machine

/-- What each step of a fold keeps, the fold keeps. -/
theorem foldl_keeps {α σ : Type} {P : σ → Prop} {f : σ → α → σ} {l : List α} (step : ∀ s, P s → ∀ x ∈ l, P (f s x)) {s : σ}
    (h : P s) : P (l.foldl f s) := by
  induction l generalizing s with
  | nil => exact h
  | cons x l ih => exact ih (fun s h y mem => step s h y (.tail _ mem)) (step s h x (.head _))

namespace State

variable {known : Nat → Bool} {s t : State}

/-! ### The operations of the HU on the hold table and the slots -/

/-- The holds and slots have their form, where the origins `known` may have peer records. -/
def HoldsWith (known : Nat → Bool) (s : State) : Prop := HoldTables s.ownId known s.hu.holds s.slot

theorem slot_congr (slots : t.hu.slots = s.hu.slots) : t.slot = s.slot :=
  funext fun i => by rw [State.slot, State.slot, slots]

theorem ownId_congr (identity : t.sc.identity = s.sc.identity) : t.ownId = s.ownId := by rw [State.ownId, identity]; rfl

theorem HoldsWith.of_eq (h : s.HoldsWith known) (holds : t.hu.holds = s.hu.holds) (slots : t.hu.slots = s.hu.slots)
    (identity : t.sc.identity = s.sc.identity) : t.HoldsWith known := by
  unfold State.HoldsWith
  rw [ownId_congr identity, holds, slot_congr slots]
  exact h

theorem HoldsWith.makeDue (h : s.HoldsWith known) (p : Fin 10) (k : FrameKind) (c : Fin 3) :
    (s.makeDue p k c).HoldsWith known := by
  rw [State.makeDue_eq]
  exact h.of_eq rfl rfl rfl

theorem HoldsWith.withdrawEntry (h : s.HoldsWith known) (p : Fin 10) : (s.withdrawEntry p).HoldsWith known := by
  rw [State.withdrawEntry_eq]
  exact h.of_eq rfl rfl rfl

theorem HoldsWith.post (h : s.HoldsWith known) (done : Completion) : (s.post done).HoldsWith known := h.of_eq rfl rfl rfl

theorem HoldsWith.count (h : s.HoldsWith known) (n : Nat) : (s.count n).HoldsWith known := h.of_eq rfl rfl rfl

theorem HoldsWith.setOverflow (h : s.HoldsWith known) (b : Bool) : (s.setOverflow b).HoldsWith known := by
  rw [State.setOverflow_eq]
  exact h.of_eq rfl rfl rfl

/-- A slot changes within what its record shows of it. -/
theorem HoldsWith.setSlot (h : s.HoldsWith known) {i : Fin 8} {x : Slot} (live : x.isLive = (s.slot i).isLive)
    (committed : x.isCommitted = (s.slot i).isCommitted)
    (number : x.number = (s.slot i).number ∨ x.isLive = false ∧ x.number = none) : (s.setSlot i x).HoldsWith known := by
  refine HoldTables.reslot h fun j => ?_
  rw [slot_setSlot]
  split
  · rename_i same
    rw [same]
    exact ⟨live, committed, number⟩
  · exact ⟨rfl, rfl, .inl rfl⟩

theorem removeHold_holds (s : State) (code : Nat) : (s.removeHold code).hu.holds = Table.erase Hold.code code s.hu.holds := by
  unfold State.removeHold
  split
  · rename_i none
    refine (List.filter_eq_self.2 fun x mem => ?_).symm
    exact bne_iff_ne.2 (Table.lookup_eq_none.1 none x mem)
  · dsimp only
    split
    · rfl
    · rw [State.setOverflow_eq]
      rfl

theorem removeHold_ownId (s : State) (code : Nat) : (s.removeHold code).ownId = s.ownId :=
  ownId_congr (congrArg Sc.identity (Work.removeHold s code).blocks_of_holds.sc)

/-- A record of another origin goes. -/
theorem HoldsWith.removePeer (h : s.HoldsWith known) {origin : Nat} (other : origin ≠ s.ownId) (n : BitVec 8) :
    (s.removeHold (holdCode origin n)).HoldsWith known := by
  unfold State.HoldsWith
  rw [removeHold_ownId, removeHold_holds, show (s.removeHold _).slot = s.slot from funext (slot_removeHold s _)]
  refine HoldTables.erasePeer h fun x stored code => ?_
  have := HoldTables.side h x stored
  rw [(holdCode_inj (show holdCode x.origin x.number = _ from code)).1, beq_false_of_ne other] at this
  exact this

theorem endHold_holds {i : Fin 8} {n : BitVec 8} (number : (s.slot i).number = some n) (outcome : HoldOutcome) (x : Slot) :
    (s.endHold i outcome x).hu.holds = Table.erase Hold.code (holdCode s.ownId n) s.hu.holds := by
  have kept (c : Status) (items : Items) (u : State) : ((u.completeCommit i c items).setSlot i x).hu.holds = u.hu.holds := by
    unfold State.completeCommit
    split
    · split <;> rfl
    · rfl
  unfold State.endHold
  rw [number]
  dsimp only
  rw [kept, removeHold_holds]

theorem endHold_ownId (s : State) (i : Fin 8) (outcome : HoldOutcome) {x : Slot} (dead : x.isLive = false) :
    (s.endHold i outcome x).ownId = s.ownId :=
  ownId_congr (congrArg Sc.identity (Work.endHold s i outcome x dead).blocks_of_holds.sc)

/-- An own hold ends, and its slot keeps its number or none. -/
theorem HoldsWith.endHold (h : s.HoldsWith known) {i : Fin 8} {n : BitVec 8} (number : (s.slot i).number = some n)
    (outcome : HoldOutcome) {x : Slot} (dead : x.isLive = false) (kept : x.number = some n ∨ x.number = none) :
    (s.endHold i outcome x).HoldsWith known := by
  have slot (j : Fin 8) := s.endHold_slot i outcome x j (by rw [number]; nofun)
  unfold State.HoldsWith
  rw [endHold_ownId s i outcome dead, endHold_holds number]
  refine HoldTables.eraseOwn h (i := i) number (fun j other => ?_) ?_ ?_
  · rw [slot, if_neg other]
  · rw [slot, if_pos rfl]
    exact dead
  · rw [slot, if_pos rfl]
    exact kept

/-- A record changes its flags and its lifetime, with its slot's substate. -/
theorem HoldsWith.rewrite (h : s.HoldsWith known) {x y : Hold} (stored : x ∈ s.hu.holds) (code : y.code = x.code)
    (side : y.own = x.own) (window : y.start = x.start ∧ y.width = x.width ∧ y.links = x.links)
    (committed : y.committed = x.committed ∨ x.own = false) : (s.putHold y).HoldsWith known := by
  refine HoldTables.rewrite h stored code side window (fun _ => ⟨rfl, rfl⟩) (fun _ _ => rfl) fun mine i number => ?_
  rw [committed.resolve_right (by rw [← side, mine]; nofun)]
  refine HoldTables.committed h x stored (by rw [← side]; exact mine) i ?_
  rw [← (holdCode_inj (show holdCode y.origin y.number = holdCode x.origin x.number from code)).2]
  exact number

theorem HoldsWith.ownHold (h : s.HoldsWith known) {n : BitVec 8} {x : Hold} (found : s.ownHold n = some x) :
    x ∈ s.hu.holds ∧ x.own = true ∧ x.number = n ∧ x.origin = s.ownId := by
  obtain ⟨stored, code⟩ := (Table.lookup_eq_some (HoldTables.sorted h)).1 found
  obtain ⟨origin, number⟩ := holdCode_inj (show holdCode x.origin x.number = _ from code)
  refine ⟨stored, ?_, number, origin⟩
  rw [HoldTables.side h x stored, origin, beq_self_eq_true]

theorem HoldsWith.establish (h : s.HoldsWith known) (n : BitVec 8) : (s.establish n).HoldsWith known := by
  unfold State.establish
  split
  · exact h
  · rename_i x found
    exact (h.rewrite (y := { x with established := true, lifetime := some s.holdBits }) (h.ownHold found).1 rfl rfl
      ⟨rfl, rfl, rfl⟩ (.inl rfl)).count 1

theorem HoldsWith.loseHold (h : s.HoldsWith known) (i : Fin 8) : (s.loseHold i).HoldsWith known := by
  unfold State.loseHold
  split
  · rename_i n t slot
    exact (h.withdrawEntry _).endHold (by rw [slot_withdrawEntry, slot]; rfl) _ rfl (.inl rfl)
  · exact h

theorem withdrawObject_cases (s : State) (p : Fin 10) : s.withdrawObject p = s.withdrawEntry p ∨ s.withdrawObject p = s := by
  unfold State.withdrawObject
  split
  · split
    · exact .inl rfl
    · exact .inr rfl
  · exact .inr rfl

theorem HoldsWith.withdrawObject (h : s.HoldsWith known) (p : Fin 10) : (s.withdrawObject p).HoldsWith known := by
  rcases s.withdrawObject_cases p with is | is
  · rw [is]
    exact h.withdrawEntry p
  · rw [is]
    exact h

theorem slot_withdrawObject (s : State) (p : Fin 10) (i : Fin 8) : (s.withdrawObject p).slot i = s.slot i := by
  rcases s.withdrawObject_cases p with is | is
  · rw [is, slot_withdrawEntry]
  · rw [is]

/-- A committed record that is superseded goes (R103). -/
theorem HoldsWith.supersede (h : s.HoldsWith known) {x : Hold} (other : x.own = false → x.origin ≠ s.ownId) :
    (s.supersede x).HoldsWith known := by
  unfold State.supersede
  split
  · split
    · split
      · split
        · rename_i slot
          exact (h.withdrawObject _).endHold (by rw [slot_withdrawObject, slot]; rfl) _ rfl (.inl rfl)
        · exact h
      · exact h
    · rename_i peer
      exact h.removePeer (other (Bool.eq_false_of_not_eq_true peer)) x.number
  · exact h

theorem supersede_ownId (s : State) (x : Hold) : (s.supersede x).ownId = s.ownId :=
  ownId_congr (congrArg Sc.identity (Work.supersede s x).blocks_of_holds.sc)

theorem HoldsWith.checkSuperseded (h : s.HoldsWith known) (node : Nat) : (s.checkSuperseded node).HoldsWith known := by
  refine (foldl_keeps (P := fun t : State => t.HoldsWith known ∧ t.ownId = s.ownId) (fun t ⟨form, own⟩ x mem => ?_)
    ⟨h, rfl⟩).1
  obtain ⟨stored, -⟩ := List.mem_filter.1 mem
  exact ⟨form.supersede fun peer => by rw [own]; exact HoldTables.origin_ne h stored peer, (supersede_ownId t x).trans own⟩

theorem HoldsWith.removePeerHolds (h : s.HoldsWith known) (origin : Nat) : (s.removePeerHolds origin).HoldsWith known := by
  refine (foldl_keeps (P := fun t : State => t.HoldsWith known ∧ t.ownId = s.ownId) (fun t ⟨form, own⟩ x mem => ?_)
    ⟨h, rfl⟩).1
  obtain ⟨stored, peer⟩ := List.mem_filter.1 mem
  rw [Bool.and_eq_true, Bool.not_eq_true'] at peer
  exact ⟨form.removePeer (by rw [own]; exact HoldTables.origin_ne h stored peer.1) x.number,
    (removeHold_ownId t _).trans own⟩

theorem HoldsWith.endContest (h : s.HoldsWith known) (i : Fin 8) : (s.endContest i).HoldsWith known := by
  unfold State.endContest
  split
  · rename_i n t slot
    exact (h.establish n).setSlot (by rw [slot_establish, slot]; rfl) (by rw [slot_establish, slot]; rfl)
      (.inl (by rw [slot_establish, slot]; rfl))
  · rename_i c n t slot
    exact ((h.establish n).setSlot (by rw [slot_establish, slot]; rfl) (by rw [slot_establish, slot]; rfl)
      (.inl (by rw [slot_establish, slot]; rfl))).makeDue _ _ _
  · exact h

theorem HoldsWith.expireHold (h : s.HoldsWith known) (i : Fin 8) : (s.expireHold i).HoldsWith known := by
  unfold State.expireHold
  split
  · rename_i slot
    exact (h.endHold (by rw [slot]; rfl) _ rfl (.inl rfl)).makeDue _ _ _
  · rename_i slot
    exact (h.endHold (by rw [slot]; rfl) _ rfl (.inl rfl)).makeDue _ _ _
  · exact h

/-- A COMMIT is sent: the record and its slot are committed together (R99). -/
theorem HoldsWith.commitSent (h : s.HoldsWith known) {i : Fin 8} {n : BitVec 8} {t c : Tag}
    (slot : s.slot i = .live (.committing c) n t) : (s.commitSent i n t c).HoldsWith known := by
  unfold State.commitSent
  split
  · exact h
  · rename_i x found
    obtain ⟨stored, mine, number, -⟩ := h.ownHold found
    have committed : (((s.putHold { x with committed := true, lifetime := some s.commitBits }).count 1).setSlot i
        (.live .committed n t)).HoldsWith known := by
      have at_ {j : Fin 8} (held : (s.slot j).number = some x.number) : j = i := by
        refine HoldTables.numbers h j i (by rw [held]; nofun) ?_
        rw [held, slot, number]
        rfl
      refine HoldTables.rewrite h stored rfl rfl ⟨rfl, rfl, rfl⟩ (fun j => ?_) (fun j ne => ?_) fun _ j held => ?_
      · rw [slot_setSlot]
        split
        · rename_i same
          rw [same, slot]
          exact ⟨rfl, rfl⟩
        · exact ⟨rfl, rfl⟩
      · rw [slot_setSlot]
        split
        · rename_i same
          rw [mine, same, slot, number] at ne
          exact absurd rfl (ne.resolve_left nofun)
        · rfl
      · rw [slot_setSlot, if_pos (at_ held)]
        rfl
    exact (committed.post _).supersede fun peer => by rw [show x.own = false from peer] at mine; cases mine

theorem HoldsWith.holdSent (h : s.HoldsWith known) (i : Fin 8) (k : FrameKind) : (s.holdSent i k).HoldsWith known := by
  unfold State.holdSent
  split
  · rename_i slot
    exact h.setSlot (by rw [slot]; rfl) (by rw [slot]; rfl) (.inl (by rw [slot]; rfl))
  · rename_i slot
    exact h.commitSent slot
  · rename_i slot
    exact h.setSlot (by rw [slot]; rfl) (by rw [slot]; rfl) (.inl (by rw [slot]; rfl))
  · rename_i slot
    exact h.setSlot (by rw [slot]; rfl) (by rw [slot]; rfl) (.inr ⟨rfl, rfl⟩)
  · exact h

theorem HoldsWith.holdDropped (h : s.HoldsWith known) (i : Fin 8) (k : FrameKind) : (s.holdDropped i k).HoldsWith known := by
  unfold State.holdDropped
  split
  · rename_i slot
    exact h.endHold (by rw [slot]; rfl) _ rfl (.inl rfl)
  · rename_i c n t slot
    have slot' : (s.post (.plain .holdCommit c .mediumFailed)).slot i = .live (.committing c) n t := slot
    exact (h.post _).setSlot (by rw [slot']; rfl) (by rw [slot']; rfl) (.inl (by rw [slot']; rfl))
  · rename_i slot
    exact h.setSlot (by rw [slot]; rfl) (by rw [slot]; rfl) (.inl (by rw [slot]; rfl))
  · rename_i slot
    exact h.setSlot (by rw [slot]; rfl) (by rw [slot]; rfl) (.inr ⟨rfl, rfl⟩)
  · exact h

theorem HoldsWith.restateAll (h : s.HoldsWith known) : s.restateAll.HoldsWith known :=
  foldl_keeps (fun s h i _ => by
    unfold State.restate
    split
    · exact h.makeDue _ _ _
    · exact h.makeDue _ _ _
    · exact h.makeDue _ _ _
    · exact h) h

theorem HoldsWith.objectAll (h : s.HoldsWith known) (x : Hold) : (s.objectAll x).HoldsWith known :=
  foldl_keeps (fun s h i _ => by
    unfold State.objectIf
    split
    · split
      · split
        · exact h.makeDue _ _ _
        · exact h
      · exact h
    · exact h) h

theorem HoldsWith.muteSlot (h : s.HoldsWith known) (i : Fin 8) : (s.muteSlot i).HoldsWith known := by
  unfold State.muteSlot
  split
  · rename_i slot
    exact h.endHold (by rw [slot]; rfl) _ rfl (.inl rfl)
  · rename_i slot
    exact h.setSlot (by rw [slot]; rfl) (by rw [slot]; rfl) (.inr ⟨rfl, rfl⟩)
  · exact h

theorem HoldsWith.muteHolds (h : s.HoldsWith known) : s.muteHolds.HoldsWith known :=
  foldl_keeps (fun _ h i _ => h.muteSlot i) h

theorem HoldsWith.releaseLive (h : s.HoldsWith known) {i : Fin 8} {sub : Substate} {n : BitVec 8} {t : Tag}
    (slot : s.slot i = .live sub n t) : (s.releaseLive i sub n t).HoldsWith known := by
  unfold State.releaseLive
  split
  · split
    · exact (h.endHold (by rw [slot]; rfl) _ rfl (.inl rfl)).makeDue _ _ _
    · exact (h.withdrawEntry _).endHold (by rw [slot_withdrawEntry, slot]; rfl) _ rfl (.inr rfl)
  · exact (h.endHold (by rw [slot]; rfl) _ rfl (.inl rfl)).makeDue _ _ _

theorem HoldsWith.leaveSlot (h : s.HoldsWith known) (i : Fin 8) : (s.leaveSlot i).HoldsWith known := by
  unfold State.leaveSlot
  split
  · rename_i slot
    split
    · exact (h.endHold (by rw [slot]; rfl) _ rfl (.inl rfl)).makeDue _ _ _
    · exact (h.withdrawEntry _).endHold (by rw [slot_withdrawEntry, slot]; rfl) _ rfl (.inr rfl)
  · rename_i slot
    exact (h.endHold (by rw [slot]; rfl) _ rfl (.inl rfl)).makeDue _ _ _
  · rename_i slot
    exact h.setSlot (by rw [slot]; rfl) (by rw [slot]; rfl) (.inl (by rw [slot]; rfl))
  · rename_i slot
    exact h.setSlot (by rw [slot]; rfl) (by rw [slot]; rfl) (.inr ⟨rfl, rfl⟩)
  · exact h

theorem HoldsWith.leaveHolds (h : s.HoldsWith known) : s.leaveHolds.HoldsWith known :=
  foldl_keeps (fun _ h i _ => h.leaveSlot i) h

theorem HoldsWith.polled (h : s.HoldsWith known) : HoldsWith known { s with hu.slots := s.hu.slots.map Slot.polled } := by
  refine HoldTables.reslot h fun i => ?_
  rw [slot_polled]
  cases s.slot i with
  | ended => exact ⟨rfl, rfl, .inr ⟨rfl, rfl⟩⟩
  | _ => exact ⟨rfl, rfl, .inl rfl⟩

/-! ### An incoming hold (R105 to R107) -/

theorem mem_placeByRank {r x : Hold} {l : List Hold} : x ∈ placeByRank r l ↔ x = r ∨ x ∈ l := by
  induction l with
  | nil => simp [placeByRank]
  | cons y l ih =>
    unfold placeByRank
    split
    · simp
    · simp only [List.mem_cons, ih]
      tauto

theorem mem_rankOrder {x : Hold} {l : List Hold} : x ∈ rankOrder l ↔ x ∈ l := by
  induction l with
  | nil => exact Iff.rfl
  | cons y l ih => rw [rankOrder, List.foldr_cons, mem_placeByRank, List.mem_cons, ← ih, rankOrder]

/-- What a record that yields is to its table. -/
theorem HoldsWith.yield (h : s.HoldsWith known) {x : Hold} (mine : x.own = true → x.origin = s.ownId)
    (other : x.own = false → x.origin ≠ s.ownId) : (s.yield x).HoldsWith known ∧
      (∀ y ∈ (s.yield x).hu.holds, y ∈ s.hu.holds) ∧ x ∉ (s.yield x).hu.holds := by
  have erased {code : Nat} (is : x ∈ s.hu.holds → x.code = code) :
      (∀ y ∈ Table.erase Hold.code code s.hu.holds, y ∈ s.hu.holds) ∧ x ∉ Table.erase Hold.code code s.hu.holds := by
    refine ⟨fun y => Table.mem_of_mem_erase, fun mem => ?_⟩
    obtain ⟨stored, ne⟩ := List.mem_filter.1 mem
    exact bne_iff_ne.1 ne (is stored)
  unfold State.yield
  split
  · rename_i own
    have slotted (stored : x ∈ s.hu.holds) := HoldTables.slotted h x stored own
    split
    · rename_i i found
      have number : (s.slot i).number = some x.number := by simpa using List.find?_some found
      refine ⟨h.loseHold i, ?_⟩
      unfold State.loseHold
      split
      · rename_i n t slot
        rw [endHold_holds (n := n) (by rw [slot_withdrawEntry, slot]; rfl), State.withdrawEntry_eq]
        refine erased fun stored => ?_
        rw [slot] at number
        rw [Hold.code, mine own, ← Option.some.inj number]
        rfl
      · rename_i dead
        refine ⟨fun _ => id, fun stored => ?_⟩
        obtain ⟨j, live, held⟩ := slotted stored
        rw [HoldTables.numbers h j i (by rw [held]; nofun) (held.trans number.symm)] at live
        cases slot : s.slot i with
        | live sub n t => exact dead _ n t slot
        | _ => rw [slot] at live; cases live
    · rename_i none
      refine ⟨h, fun _ => id, fun stored => ?_⟩
      obtain ⟨i, -, held⟩ := slotted stored
      have := List.find?_eq_none.1 none i (mem_allSlots i)
      rw [held] at this
      exact this (beq_self_eq_true _)
  · rename_i peer
    refine ⟨h.removePeer (other (Bool.eq_false_of_not_eq_true peer)) x.number, ?_⟩
    rw [removeHold_holds]
    exact erased fun _ => rfl

theorem yield_ownId (s : State) (x : Hold) : (s.yield x).ownId = s.ownId :=
  ownId_congr (congrArg Sc.identity (Work.yield s x).blocks_of_holds.sc)

theorem yields_ownId (s : State) (l : List Hold) : (l.foldl (fun s r => s.yield r) s).ownId = s.ownId :=
  foldl_keeps (P := fun t : State => t.ownId = s.ownId) (fun t same x _ => (yield_ownId t x).trans same) rfl

theorem HoldsWith.yields {l : List Hold} (h : s.HoldsWith known) (mine : ∀ x ∈ l, x.own = true → x.origin = s.ownId)
    (other : ∀ x ∈ l, x.own = false → x.origin ≠ s.ownId) : (l.foldl (fun s r => s.yield r) s).HoldsWith known ∧
      (∀ y ∈ (l.foldl (fun s r => s.yield r) s).hu.holds, y ∈ s.hu.holds ∧ y ∉ l) := by
  induction l generalizing s with
  | nil => exact ⟨h, fun y mem => ⟨mem, List.not_mem_nil⟩⟩
  | cons x l ih =>
    obtain ⟨mineX, mine⟩ := List.forall_mem_cons.1 mine
    obtain ⟨otherX, other⟩ := List.forall_mem_cons.1 other
    obtain ⟨form, sub, gone⟩ := h.yield mineX otherX
    obtain ⟨form', sub'⟩ := ih form (by rwa [yield_ownId]) (by rwa [yield_ownId])
    refine ⟨form', fun y mem => ?_⟩
    obtain ⟨stays, absent⟩ := sub' y mem
    refine ⟨sub y stays, fun inl => ?_⟩
    rcases List.mem_cons.1 inl with rfl | inl
    · exact gone stays
    · exact absent inl

/-- An incoming hold is stored where it overlaps nothing and is new, or finds no place (R107). -/
theorem HoldsWith.storeHold (h : s.HoldsWith known) {y : Hold} (new : ∀ x ∈ s.hu.holds, x.code ≠ y.code)
    (apart : ∀ x ∈ s.hu.holds, x.overlaps y = false) (peer : y.own = false) (other : y.origin ≠ s.ownId)
    (origin : known y.origin = true) : (s.storeHold y).HoldsWith known := by
  unfold State.storeHold
  split
  · rename_i room
    have stored : ((s.putHold { y with lifetime := some (s.peerLifetime y.committed) }).count 1).HoldsWith known :=
      HoldTables.insertPeer h new apart peer other (by rw [List.countP_eq_length_filter]; exact room) origin
    exact stored.supersede fun _ => other
  · exact h.setOverflow true

theorem HoldsWith.contend (h : s.HoldsWith known) {y : Hold} (new : ∀ x ∈ s.hu.holds, x.code ≠ y.code)
    (peer : y.own = false) (other : y.origin ≠ s.ownId) (origin : known y.origin = true) : (s.contend y).HoldsWith known := by
  have rival {x : Hold} : x ∈ rankOrder (s.hu.holds.filter (fun r => r.overlaps y)) ↔
      x ∈ s.hu.holds ∧ x.overlaps y = true := by rw [mem_rankOrder, List.mem_filter]
  unfold State.contend
  dsimp only
  split
  · exact h.objectAll y
  · obtain ⟨form, sub⟩ := h.yields (l := rankOrder (s.hu.holds.filter (fun r => r.overlaps y)))
      (fun x mem => HoldTables.origin_eq h (rival.1 mem).1) (fun x mem => HoldTables.origin_ne h (rival.1 mem).1)
    refine form.storeHold (fun x mem => new x (sub x mem).1) (fun x mem => ?_) peer (by rwa [yields_ownId]) origin
    obtain ⟨stored, beaten⟩ := sub x mem
    exact Bool.eq_false_of_not_eq_true fun meets => beaten (rival.2 ⟨stored, meets⟩)

theorem HoldsWith.refresh (h : s.HoldsWith known) {r : Hold} (stored : r ∈ s.hu.holds) (peer : r.own = false) (y : Hold) :
    (s.refresh r y).HoldsWith known := by
  have other := HoldTables.origin_ne h stored peer
  have counted {b : Bool} {u : State} (h : u.HoldsWith known) (same : u.ownId = s.ownId) :
      (if b then u.count 1 else u).HoldsWith known ∧ (if b then u.count 1 else u).ownId = s.ownId := by
    split
    · exact ⟨h.count 1, same⟩
    · exact ⟨h, same⟩
  have written := h.rewrite (y := { r with established := r.established || y.established, committed := r.committed || y.committed
                                           lifetime := some (s.peerLifetime (r.committed || y.committed)) })
    stored rfl rfl ⟨rfl, rfl, rfl⟩ (.inr peer)
  unfold State.refresh
  dsimp only
  obtain ⟨form, own⟩ := counted (b := (r.established || y.established) != r.established ||
    (r.committed || y.committed) != r.committed) written rfl
  split
  · exact form.supersede fun _ => by rw [own]; exact other
  · exact form

theorem HoldsWith.incoming (h : s.HoldsWith known) {y : Hold} (peer : y.own = false) (other : y.origin ≠ s.ownId)
    (origin : known y.origin = true) : (s.incoming y).HoldsWith known := by
  unfold State.incoming
  split
  · rename_i none
    exact h.contend (Table.lookup_eq_none.1 none) peer other origin
  · rename_i r found
    obtain ⟨stored, code⟩ := (Table.lookup_eq_some (HoldTables.sorted h)).1 found
    have same : r.origin = y.origin := (holdCode_inj (show holdCode r.origin r.number = holdCode y.origin y.number from code)).1
    split
    · refine h.refresh stored ?_ y
      rw [HoldTables.side h r stored, same, beq_false_of_ne other]
    · refine (h.removePeer other y.number).contend (fun x mem => ?_) peer (by rwa [removeHold_ownId]) origin
      rw [removeHold_holds] at mem
      exact bne_iff_ne.1 (List.mem_filter.1 mem).2

theorem HoldsWith.holdFrame (h : s.HoldsWith s.knows) (k : FrameKind) {origin : Nat} (other : origin ≠ s.ownId)
    (body : List Byte) : (s.holdFrame k origin body).HoldsWith s.knows := by
  unfold State.holdFrame
  split
  · rename_i origin
    split
    · exact h
    · exact h.incoming rfl other origin
  · exact h

theorem HoldsWith.releaseFrame (h : s.HoldsWith known) {origin : Nat} (other : origin ≠ s.ownId) (body : List Byte) :
    (s.releaseFrame origin body).HoldsWith known := by
  unfold State.releaseFrame
  split
  · split
    · exact h.removePeer other _
    · exact h
  · exact h

/-! ### A new own hold (R90, R92) -/

theorem findSlot_of_isSome {n : BitVec 8} (used : (s.findSlot n).isSome = true) : ∃ i, (s.slot i).number = some n := by
  obtain ⟨i, found⟩ := Option.isSome_iff_exists.1 used
  exact ⟨i, by simpa using List.find?_some found⟩

theorem unused_of_findSlot {n : BitVec 8} (unused : s.findSlot n = none) (i : Fin 8) : (s.slot i).number ≠ some n := by
  have := List.find?_eq_none.1 unused i (mem_allSlots i)
  simpa using this

/-- The search for a number ends at one that no slot holds, or has seen as many numbers in use. -/
theorem freeNumber_cases (s : State) (k : Nat) (n : BitVec 8) : s.findSlot (s.freeNumber k n) = none ∨
    ∀ j < k, (s.findSlot (n + BitVec.ofNat 8 j)).isSome = true := by
  induction k generalizing n with
  | zero => exact .inr nofun
  | succ k ih =>
    unfold State.freeNumber
    split
    · rename_i used
      refine (ih (n + 1)).imp_right fun all j lt => ?_
      cases j with
      | zero => simpa using used
      | succ j =>
        have := all j (by omega)
        rwa [BitVec.add_assoc, show ((1 : BitVec 8) + BitVec.ofNat 8 j) = BitVec.ofNat 8 (j + 1) from by
          rw [Nat.add_comm j 1, BitVec.ofNat_add]; rfl] at this
    · rename_i free
      exact .inl (by simpa using free)

/-- With a slot free, at most seven numbers are in use, and the next is found (R90). -/
theorem nextNumber_unused {i : Fin 8} (free : s.slot i = .free) (j : Fin 8) : (s.slot j).number ≠ some s.nextNumber := by
  refine unused_of_findSlot ((freeNumber_cases s 8 (s.hu.lastNumber + 1)).resolve_right fun all => ?_) j
  have used (k : Fin 8) : ∃ i, (s.slot i).number = some (s.hu.lastNumber + 1 + BitVec.ofNat 8 k.val) :=
    findSlot_of_isSome (all k.val k.isLt)
  choose f held using used
  have inj : Function.Injective f := by
    intro a b same
    have := (held a).symm.trans ((congrArg (fun i => (s.slot i).number) same).trans (held b))
    have := congrArg BitVec.toNat (BitVec.add_right_inj _ |>.1 (Option.some.inj this))
    simp only [BitVec.toNat_ofNat] at this
    omega
  obtain ⟨k, hit⟩ := Finite.surjective_of_injective inj i
  have := held k
  rw [hit, free] at this
  cases this

theorem linkStands_apart {window width : Nat} {x : LinkKey × Nat} (stands : s.linkStands window width x = true) :
    ∀ h ∈ s.hu.holds, h.claims x.1 window width = false := by
  unfold State.linkStands at stands
  split at stands
  · rename_i l found
    simp only [State.usable, Bool.and_eq_true, beq_iff_eq, List.all_eq_true, Bool.not_eq_true'] at stands
    obtain ⟨⟨⟨key, -⟩, -⟩, -, free⟩ := stands
    intro h stored
    rw [← key]
    exact free h stored
  · cases stands

/-- A found path's hold overlaps no record (R141, R143). -/
theorem found_apart {path : List (LinkKey × Nat)} {window width : Nat} (stands : path.all (s.linkStands window width) = true)
    {y : Hold} (start : y.start = window) (width' : y.width = width) (links : y.links = path.map Prod.fst) {x : Hold}
    (stored : x ∈ s.hu.holds) : x.overlaps y = false := by
  refine Bool.eq_false_of_not_eq_true fun meets => ?_
  rw [Hold.overlaps, Bool.and_eq_true, List.any_eq_true, start, width', links] at meets
  obtain ⟨⟨k, mine, yours⟩, windows⟩ := meets
  obtain ⟨e, mem, rfl⟩ := List.mem_map.1 (List.contains_iff_mem.1 yours)
  have := linkStands_apart (List.all_eq_true.1 stands e mem) x stored
  rw [Hold.claims, windows, Bool.and_true] at this
  exact Bool.eq_false_iff.1 this (List.contains_iff_mem.2 mine)

theorem HoldsWith.createHold (h : s.HoldsWith known) {i : Fin 8} (free : s.slot i = .free) (tag : Tag) (priority : Nat)
    {window width : Nat} {path : List (LinkKey × Nat)} (stands : path.all (s.linkStands window width) = true) :
    (s.createHold i tag priority window width (path.map Prod.fst)).HoldsWith known := by
  have held : (s.withHold i tag priority window width (path.map Prod.fst)).HoldsWith known := by
    have slot (j : Fin 8) : (s.withHold i tag priority window width (path.map Prod.fst)).slot j =
        if j = i then .live (.pending none) s.nextNumber tag else s.slot j := slot_setSlot i j _
    refine HoldTables.insertOwn h free (nextNumber_unused free) (fun x stored => found_apart stands rfl rfl rfl stored) rfl rfl
      (fun j other => ?_) ?_ ?_ ?_
    · rw [slot, if_neg other]
    · rw [slot, if_pos rfl]
      rfl
    · rw [slot, if_pos rfl]
      rfl
    · rw [slot, if_pos rfl]
      rfl
  rw [createHold_eq]
  exact held.makeDue _ _ _

end State

end Sys2Proof.Machine

namespace Sys2Proof.Machine

namespace State

variable {known : Nat → Bool} {s t u : State}

/-! ### The form of the holds through the events and the requests -/

theorem HoldsOk.with (h : s.HoldsOk) : s.HoldsWith s.knows := holdsOk_iff.1 h

/-- The form of the holds rests on the hold table, the slots, the own node id and the known nodes. -/
theorem HoldsOk.still (h : s.HoldsOk) (holds : t.hu.holds = s.hu.holds) (slots : t.hu.slots = s.hu.slots)
    (identity : t.sc.identity = s.sc.identity) (nodes : t.tv.nodes = s.tv.nodes) : t.HoldsOk := by
  have knows : t.knows = s.knows := funext fun n => by rw [State.knows, State.knows, nodes]
  rw [holdsOk_iff, knows]
  exact h.with.of_eq holds slots identity

/-- Work on the holds keeps the nodes known. -/
theorem HoldsWith.ok (form : t.HoldsWith s.knows) (work : Work outsideHolds s t) : t.HoldsOk := by
  have knows : t.knows = s.knows := funext fun n => by rw [State.knows, State.knows, work.nodes]
  rw [holdsOk_iff, knows]
  exact form

theorem holdsOk_of_empty (holds : s.hu.holds = []) (free : ∀ i, s.slot i = .free) : s.HoldsOk := by
  rw [holdsOk_iff, holds]
  exact .empty free

/-- More nodes become known. -/
theorem HoldsOk.knowing (h : s.HoldsOk) (holds : t.hu.holds = s.hu.holds) (slots : t.hu.slots = s.hu.slots)
    (identity : t.sc.identity = s.sc.identity) (more : ∀ n, hasNode s.tv.nodes n = true → hasNode t.tv.nodes n = true) :
    t.HoldsOk := by
  rw [holdsOk_iff]
  exact HoldTables.reknown (h.with.of_eq holds slots identity) fun x _ _ => more x.origin

/-- Removing records takes them, and only them. -/
theorem removes_holds {l : List Hold} : ∀ x ∈ (l.foldl (fun s h => s.removeHold h.code) s).hu.holds,
    x ∈ s.hu.holds ∧ x ∉ l := by
  induction l generalizing s with
  | nil => exact fun x mem => ⟨mem, List.not_mem_nil⟩
  | cons y l ih =>
    intro x mem
    obtain ⟨stays, absent⟩ := ih x mem
    rw [removeHold_holds] at stays
    obtain ⟨stored, ne⟩ := List.mem_filter.1 stays
    refine ⟨stored, fun inl => ?_⟩
    rcases List.mem_cons.1 inl with rfl | inl
    · exact bne_iff_ne.1 ne rfl
    · exact absent inl

theorem removePeerHolds_gone {origin : Nat} : ∀ x ∈ (s.removePeerHolds origin).hu.holds, x.own = false →
    x.origin ≠ origin := by
  intro x mem peer same
  obtain ⟨stored, absent⟩ := removes_holds x mem
  exact absent (List.mem_filter.2 ⟨stored, by rw [peer, same, beq_self_eq_true]; rfl⟩)

/-- A purge takes the peer holds of the origin with its record (R35, R110). -/
theorem HoldsOk.purge (h : s.HoldsOk) (origin : Nat) : (s.purge origin).HoldsOk := by
  have removed : ((s.unlisted origin).removePeerHolds origin).HoldsWith s.knows :=
    HoldsWith.removePeerHolds (s := s.unlisted origin) (h.with.of_eq rfl rfl rfl) origin
  have form : ((s.unlisted origin).removePeerHolds origin).HoldsWith (hasNode (Table.erase NodeRecord.id origin s.tv.nodes)) := by
    refine HoldTables.reknown removed fun x stored peer before => ?_
    rw [hasNode_erase, Bool.and_eq_true]
    exact ⟨before, bne_iff_ne.2 (removePeerHolds_gone x stored peer)⟩
  have knows : (s.purge origin).knows = hasNode (Table.erase NodeRecord.id origin s.tv.nodes) := by
    rw [← purge_nodes]
    rfl
  rw [holdsOk_iff, knows, purge_eq, State.setViewIncomplete_eq]
  exact form.of_eq rfl rfl rfl

theorem HoldsOk.ageView (h : s.HoldsOk) : s.ageView.HoldsOk := by
  unfold State.ageView
  split
  · exact h
  · refine foldl_keeps (P := State.HoldsOk) (fun u h r _ => h.purge r.id) ?_
    refine h.knowing rfl rfl rfl fun n before => ?_
    rw [← before]
    exact hasNode_map (fun r => by unfold NodeRecord.older; split <;> rfl) n

theorem setMissing_eq (s : State) (node n : Nat) : s.setMissing node n = { s with tv := (s.setMissing node n).tv } := by
  unfold State.setMissing
  split <;> rfl

theorem replacePeerLinks_hu (s : State) (origin : Nat) (es : List LinkEntry) : (s.replacePeerLinks origin es).hu = s.hu := by
  rw [replacePeerLinks_eq, State.reverify_hu, setMissing_eq]
  rfl

theorem noteMissing_hu (s : State) (origin : Nat) : (s.noteMissing origin).hu = s.hu := by
  unfold State.noteMissing
  split
  · split
    · rw [State.setViewIncomplete_eq]
    · rfl
  · rfl

/-- An ADVERT that is stored makes its origin known (R28). -/
theorem HoldsOk.storeAdvert (h : s.HoldsOk) (sorted : Table.Sorted NodeRecord.id s.tv.nodes) (origin : Nat) (a : Advert) :
    (s.storeAdvert origin a).HoldsOk := by
  have knows : (s.storeAdvert origin a).knows = hasNode (Table.put NodeRecord.id (s.advertRecord origin a) s.tv.nodes) := by
    rw [← storeAdvert_nodes sorted]
    rfl
  have form : s.HoldsWith (hasNode (Table.put NodeRecord.id (s.advertRecord origin a) s.tv.nodes)) := by
    refine HoldTables.reknown h.with fun x _ _ before => ?_
    rw [hasNode_put sorted, show hasNode s.tv.nodes x.origin = true from before, Bool.true_or]
  rw [holdsOk_iff, knows, storeAdvert_eq]
  have hu : ((((s.withRecord (a.record origin)).replacePeerLinks origin a.entries).noteMissing origin).count 2).hu = s.hu :=
    (noteMissing_hu _ _).trans (replacePeerLinks_hu _ _ _)
  have sc : ((((s.withRecord (a.record origin)).replacePeerLinks origin a.entries).noteMissing origin).count 2).sc = s.sc :=
    (Work.noteMissing _ _).sc.trans (Work.replacePeerLinks _ _ _).sc
  exact (form.of_eq (congrArg Hu.holds hu) (congrArg Hu.slots hu) (congrArg Sc.identity sc)).checkSuperseded origin

/-- A known record is written again. -/
theorem HoldsOk.withRecord (h : s.HoldsOk) (sorted : Table.Sorted NodeRecord.id s.tv.nodes) (r : NodeRecord) :
    (s.withRecord r).HoldsOk := by
  refine h.knowing rfl rfl rfl fun n before => ?_
  rw [show (s.withRecord r).tv.nodes = Table.put NodeRecord.id r s.tv.nodes from rfl, hasNode_put sorted, before, Bool.true_or]

theorem HoldsOk.advertFrame (h : s.HoldsOk) (sorted : Table.Sorted NodeRecord.id s.tv.nodes) (origin : Nat)
    (body : List Byte) : (s.advertFrame origin body).HoldsOk := by
  unfold State.advertFrame
  split
  · exact h
  · rename_i a read
    split
    · rename_i r found
      unfold State.advertKnown
      dsimp only
      split
      · split
        · exact h.purge origin
        · exact h
      · split
        · refine HoldsOk.storeAdvert ((h.with.removePeerHolds origin).ok (Work.removePeerHolds s origin)) ?_ origin a
          rw [(Work.removePeerHolds s origin).nodes]
          exact sorted
        · split
          · exact h.withRecord sorted { r with age := 0 }
          · split
            · exact h.storeAdvert sorted origin a
            · exact h
    · unfold State.advertUnknown
      split
      · exact h
      · split
        · exact h.storeAdvert sorted origin a
        · rw [State.setViewIncomplete_eq]
          exact h.still rfl rfl rfl rfl

theorem HoldsOk.writeOwnSequence (h : s.HoldsOk) (sorted : Table.Sorted NodeRecord.id s.tv.nodes) :
    s.writeOwnSequence.HoldsOk := by
  unfold State.writeOwnSequence
  split
  · exact h
  · exact h.withRecord sorted _

/-- Work on the ADVERT's entry leaves the holds. -/
theorem HoldsOk.advert (h : s.HoldsOk) (work : Work outsideAdvert s t) : t.HoldsOk :=
  h.of_eq (show t.outsideAdvert.hu = s.outsideAdvert.hu by rw [work.stands]) work.tv work.blocks_of_advert.sc

theorem HoldsOk.dispatchFrame (h : s.HoldsOk) (form : s.ViewForm) (k : FrameKind) {origin : Nat} (other : origin ≠ s.ownId)
    (body : List Byte) : (s.dispatchFrame k origin body).HoldsOk := by
  have held (k : FrameKind) : (s.holdFrame k origin body).HoldsOk :=
    (h.with.holdFrame k other body).ok (Work.holdFrame s k origin body)
  unfold State.dispatchFrame
  split
  · exact h.advertFrame form.nodesSorted origin body
  · exact h.advertFrame form.nodesSorted origin body
  · exact h.advert (Work.solicitFrame s)
  · exact held _
  · exact held _
  · exact held _
  · exact (h.with.releaseFrame other body).ok (Work.releaseFrame s origin body)

theorem HoldsOk.blockPart (h : s.HoldsOk) (form : s.ViewForm) (part : s.BlockPart t) : t.HoldsOk := by
  cases part with
  | holdSent i k => exact (h.with.holdSent i k).ok (Work.holdSent s i k)
  | holdDropped i k => exact (h.with.holdDropped i k).ok (Work.holdDropped s i k)
  | dueCheck => exact h.advert (Work.dueCheck s)
  | endIsolation => exact h.advert (Work.endIsolation s)
  | frame k origin body valid other => exact h.dispatchFrame form k other body
  | ageView => exact h.ageView
  | ownSequence => exact h.writeOwnSequence form.nodesSorted
  | restateAll => exact h.with.restateAll.ok (Work.restateAll s)
  | endContest i => exact (h.with.endContest i).ok (Work.endContest s i)
  | expireHold i => exact (h.with.expireHold i).ok (Work.expireHold s i)
  | peerGone x stored peer =>
    exact (h.with.removePeer (HoldTables.origin_ne h.with stored peer) x.number).ok (Work.removeHold s _)

theorem holdsOk_finishLeave (s : State) (status : Status) : (s.finishLeave status).HoldsOk := by
  rw [finishLeave_eq, completeLeaving_eq]
  exact holdsOk_of_empty rfl fun i => Vector.getElem_replicate ..

theorem holdsOk_of_finishLeave {status : Status} (h : u.finishLeave status = t) : t.HoldsOk := h ▸ holdsOk_finishLeave u status

theorem HoldsOk.enterMuted (h : s.HoldsOk) : s.enterMuted.HoldsOk := by
  have silenced : s.silenced.HoldsOk := h.still (congrArg Hu.holds (silenced_hu s)) (congrArg Hu.slots (silenced_hu s))
    (by rw [silenced_sc]) (congrArg Tv.nodes (silenced_tv s))
  have discarded {u : State} (h : u.HoldsOk) : u.advertDiscarded.HoldsOk := h.still rfl rfl rfl rfl
  rw [enterMuted_eq]
  exact discarded (silenced.with.muteHolds.ok (Work.muteHolds _))

theorem HoldsOk.completeJoin (h : s.HoldsOk) (status : Status) : (s.completeJoin status).HoldsOk := by
  rw [completeJoin_eq]
  exact h.still rfl rfl rfl rfl

theorem HoldsOk.duplicateReport (h : s.HoldsOk) : s.duplicateReport.HoldsOk := by
  unfold State.duplicateReport
  split
  · exact h.enterMuted.completeJoin _
  · exact h.enterMuted.completeJoin _
  · exact h.enterMuted
  · exact holdsOk_finishLeave _ _
  · exact h.still rfl rfl rfl rfl

theorem HoldsOk.searched (h : s.HoldsOk) (step : s.Searched t) : t.HoldsOk := by
  cases step with
  | unchanged | start | step | ended => exact h.still rfl rfl rfl rfl
  | aborted c =>
    unfold State.abortSearch
    rw [completeAbort_eq]
    exact h.still rfl rfl rfl rfl
  | held c r i done _ _ _ free stands =>
    obtain ⟨nodes, -, -⟩ := createHold_tables s i c.request.tag c.request.priority r.window c.request.width
      (r.path.map Prod.fst)
    have form := h.with.createHold (slot_of_freeSlot free) c.request.tag c.request.priority stands
    generalize s.createHold i c.request.tag c.request.priority r.window c.request.width (r.path.map Prod.fst) = u at nodes form
    have knows : (u.endSearch done).knows = s.knows := funext fun n => by
      rw [State.knows, State.knows, show (u.endSearch done).tv = u.tv from rfl, nodes]
    rw [holdsOk_iff, knows]
    exact form.of_eq rfl rfl rfl

theorem HoldsOk.countAnnounced (h : s.HoldsOk) : s.countAnnounced.HoldsOk := by
  unfold State.countAnnounced
  split
  · dsimp only
    split
    · unfold State.enterOperating
      refine HoldsOk.completeJoin ?_ .ok
      exact h.still rfl rfl rfl rfl
    · exact h.still rfl rfl rfl rfl
  · exact h

theorem HoldsOk.part (h : s.HoldsOk) (form : s.ViewForm) (part : s.Part t) : t.HoldsOk := by
  cases part with
  | elapse dt => exact h.elapse dt
  | block joined work => exact h.blockPart form work
  | left leaving free status => exact holdsOk_finishLeave s status
  | duplicate => exact h.duplicateReport
  | search step => exact h.searched step
  | isolate =>
    rw [State.setIsolated_eq]
    exact h.still rfl rfl rfl rfl
  | start p may =>
    rcases s.startAttempt_cases p with same | ⟨e, body, mark, entry, started⟩
    · rw [same]
      exact h
    · rw [started]
      exact h.still rfl rfl rfl rfl
  | announced joined => exact h.countAnnounced
  | tickDebt =>
    unfold State.tickDebt
    split
    · exact h.still rfl rfl rfl rfl
    · split <;> exact h.still rfl rfl rfl rfl
  | listen joined =>
    unfold State.countListen
    split
    · dsimp only
      split <;> exact h.still rfl rfl rfl rfl
    · exact h.still rfl rfl rfl rfl
  | _ => exact h.still rfl rfl rfl rfl

theorem HoldsOk.leaves (h : s.HoldsOk) : s.leaves.HoldsOk := by
  have settled : (s.completeJoin .aborted).flushPaths.HoldsOk := by
    rw [flushPaths_eq, completeJoin_eq]
    exact h.still rfl rfl rfl rfl
  have left := settled.with.leaveHolds.ok (Work.leaveHolds _)
  unfold State.leaves
  generalize (s.completeJoin .aborted).flushPaths.leaveHolds = u at left
  rw [State.makeDue_eq, State.withdrawEntry_eq]
  exact left.still rfl rfl rfl rfl

theorem HoldsOk.rebuild (h : s.HoldsOk) : s.rebuild.HoldsOk := by
  have replaced : (s.replaceOwnLinks s.ownLinkSet).HoldsOk := h.still rfl rfl rfl rfl
  unfold State.rebuild
  exact HoldsOk.advert ((replaced.with.checkSuperseded _).ok (Work.checkSuperseded _ _)) (Work.contentReport _)

theorem HoldsOk.post (h : s.HoldsOk) (done : Completion) : (s.post done).HoldsOk := h.still rfl rfl rfl rfl

theorem HoldsOk.makeDue (h : s.HoldsOk) (p : Fin 10) (k : FrameKind) (c : Fin 3) : (s.makeDue p k c).HoldsOk := by
  rw [State.makeDue_eq]
  exact h.still rfl rfl rfl rfl

/-- A slot changes within what its record shows of it. -/
theorem HoldsOk.setSlot (h : s.HoldsOk) {i : Fin 8} {x : Slot} (live : x.isLive = (s.slot i).isLive)
    (committed : x.isCommitted = (s.slot i).isCommitted) (number : x.number = (s.slot i).number) : (s.setSlot i x).HoldsOk := by
  rw [holdsOk_iff]
  exact h.with.setSlot live committed (.inl number)

theorem HoldsOk.owned (h : s.HoldsOk) (agree : s.Agree) (own : s.Owned t) : t.HoldsOk := by
  have unjoined (station : s.sc.station.joined = false) : s.hu.holds = [] ∧ ∀ i, s.slot i = .free := by
    obtain ⟨-, -, -, holds, -, free, -⟩ := agree.notJoined station
    exact ⟨holds, free⟩
  cases own with
  | identity node profile transit ports done station =>
    obtain ⟨holds, free⟩ := unjoined (by rw [station]; rfl)
    exact holdsOk_of_empty holds free
  | timing v done station => exact h.still rfl rfl rfl rfl
  | join tag station =>
    obtain ⟨holds, free⟩ := unjoined (by rw [station]; rfl)
    have due : ((s.joined tag).makeDue solicitPlace .solicit 1).HoldsOk := by
      refine HoldsOk.makeDue (holdsOk_of_empty ?_ fun i => joined_slot s tag i (free i)) _ _ _
      show s.ownStored.hu.holds = []
      unfold State.ownStored State.insertOwn
      split
      · exact holds
      · exact holds
    rw [ownJoin_configured station]
    exact due.still rfl rfl rfl rfl
  | leave tag station =>
    have left := h.leaves
    rw [beginLeave_eq]
    generalize s.leaves = u at left
    exact left.still rfl rfl rfl rfl
  | leaveMuted tag station =>
    rw [leaveMuted_eq]
    exact holdsOk_of_finishLeave rfl
  | port p r done =>
    refine HoldsOk.post ?_ done
    rcases changePort_cases s p r with ⟨same, -⟩ | ⟨written, -⟩ | ⟨rebuilt, joined⟩
    · rw [same]
      exact h
    · rw [written]
      exact h.still rfl rfl rfl rfl
    · rw [rebuilt]
      exact HoldsOk.rebuild (h.still rfl rfl rfl rfl)
  | commit i n t tag sub sub' slot idle waits uncommitted =>
    refine h.setSlot (by rw [slot]; rfl) ?_ (by rw [slot]; rfl)
    rw [slot]
    cases sub with
    | committed => exact absurd rfl uncommitted
    | _ => cases sub' with
      | committed => cases waits
      | _ => rfl
  | commitDue i n t tag slot => exact (h.setSlot (by rw [slot]; rfl) (by rw [slot]; rfl) (by rw [slot]; rfl)).makeDue _ _ _
  | release i sub n t done slot => exact HoldsOk.post ((h.with.releaseLive slot).ok (Work.releaseLive s i sub n t)) done
  | poll done => exact HoldsOk.post (holdsOk_iff.2 h.with.polled) done
  | block k m done =>
    refine HoldsOk.post ?_ done
    unfold State.setBlock
    split
    · exact h
    · split <;> exact h.still rfl rfl rfl rfl
  | _ => exact h.still rfl rfl rfl rfl

theorem HoldsOk.of_inner (same : t.inner = s.inner) (h : s.HoldsOk) : t.HoldsOk := by
  have as {α : Type} (f : State → α) : f t.inner = f s.inner := congrArg f same
  exact h.still (as (fun x => x.hu.holds)) (as (fun x => x.hu.slots)) (as (fun x => x.sc.identity)) (as (fun x => x.tv.nodes))

end State

open State

/-- Settles O53, operation by operation on the hold table and the slots. -/
theorem everyStepKeepsHolds : Obligations.EveryStepKeepsHolds := by
  unfold Obligations.EveryStepKeepsHolds
  intro s t agree ranges form holds ran
  refine (step_keeps (P := fun s => s.Agree ∧ s.Ranges ∧ s.ViewForm ∧ s.HoldsOk) ?inner ?reset ?fetch ?request ?event ?idle
    ⟨agree, ranges, form, holds⟩ ran).2.2.2
  case inner =>
    exact fun same ⟨agree, ranges, form, holds⟩ =>
      ⟨agree.of_inner same, ranges.of_inner same, form.charts (.of_inner same), holds.of_inner same⟩
  case reset => exact ⟨reset_agree, reset_ranges, reset_viewForm, holdsOk_of_empty rfl fun i => Vector.getElem_replicate ..⟩
  case fetch =>
    exact fun n ⟨agree, ranges, form, holds⟩ =>
      ⟨agree.of_clp _, ranges.of_eq rfl, form.charts (.of_eq rfl rfl rfl id), holds.still rfl rfl rfl rfl⟩
  case request =>
    rintro c own s owner takes ⟨agree, ranges, form, holds⟩
    have owned := owned_of_requestOwner owner s.accepted
    have ranges' : s.accepted.Ranges := ranges.of_eq rfl
    have form' : s.accepted.ViewForm := form.charts (.of_eq rfl rfl rfl id)
    have holds' : s.accepted.HoldsOk := holds.still rfl rfl rfl rfl
    exact ⟨agree.accepted.owned owned, ranges'.owned agree.accepted owned, form'.charts (owned.charts form' agree.accepted ranges'),
      holds'.owned agree.accepted owned⟩
  case event =>
    exact fun worked h => event_keeps (P := fun s => s.Agree ∧ s.Ranges ∧ s.ViewForm ∧ s.HoldsOk) And.left
      (fun part ⟨agree, ranges, form, holds⟩ =>
        ⟨agree.part part, ranges.part part, form.charts (part.charts form), holds.part form part⟩) worked h
  case idle =>
    exact fun ⟨agree, ranges, form, holds⟩ =>
      ⟨agree.elapse 1, ranges.of_eq rfl, form.charts (.of_eq rfl rfl rfl id), holds.elapse 1⟩

end Sys2Proof.Machine

namespace Sys2Proof.Machine

/-! The control link's answers, and the reset line. -/

/-- Settles O1: it is the definition of a step. -/
theorem stepRunsFront : Obligations.StepRunsFront := by
  unfold Obligations.StepRunsFront
  intro c rest s front
  unfold step
  rw [front]

namespace State

variable {s : State}

/-- An accepted request is its owner's work on the state in which its reservation is made (R160). -/
theorem exec_taken {c : Instr} {own : State → State} (owner : requestOwner c = some own) (takes : s.takes)
    (room : (∃ tag b, c = .path tag b) → s.psu.queue.length < 4) : exec c s = .next (own s.accepted) := by
  obtain ⟨⟨running, idle⟩, places⟩ := takes
  have free : State.busyFor c { s with events := s.events + 1 } = false := by
    refine Bool.or_eq_false_iff.2 ⟨decide_eq_false (Nat.not_le.2 places), ?_⟩
    cases c with
    | path tag b => exact decide_eq_false (Nat.not_le.2 (room ⟨tag, b, rfl⟩))
    | _ => rfl
  rw [exec_request owner, s.transact_open _ ⟨running, idle⟩, free]
  rfl

theorem answered_eq (c : Completion) (s : State) : s.answered c = s.accepted.post c := (s.post_accepted c).symm

/-- A request whose owner does not take it in a station state is completed by it at once (R165). -/
theorem posts_of_notTaken {c : Instr} {own : State → State} {kind : RequestKind} {tag : Tag} {status : Status}
    (owner : requestOwner c = some own) (refused : notTaken s.sc.station c = some (kind, tag, status)) :
    own s = s.post (.plain kind tag status) := by
  have unjoined {act : State → State} {k : RequestKind} {t : Tag}
      (refused : (if s.sc.station.joined then none else some (k, t, Status.notJoined)) = some (kind, tag, status)) :
      s.whenJoined k t act = s.post (.plain kind tag status) := by
    unfold State.whenJoined
    split at refused
    · cases refused
    · rename_i unjoined
      cases refused
      rw [if_neg unjoined]
  cases c <;> cases owner <;> simp only [notTaken] at refused
  case identity =>
    split at refused
    · cases refused
    · rename_i other
      cases refused
      exact if_pos other
  case timing =>
    split at refused
    · cases refused
    · rename_i other
      cases refused
      exact if_pos other
  case profile =>
    split at refused
    · cases refused
    · rename_i other
      cases refused
      exact if_pos other
  case join =>
    split at refused
    · cases refused
    · rename_i other
      cases refused
      exact if_pos other
  case leave =>
    unfold State.ownLeave
    split at refused
    · rename_i leaving
      cases refused
      rw [leaving]
    · split at refused
      · rename_i station
        cases refused
        rcases station with is | is | is <;> rw [is]
      · cases refused
  case path =>
    split at refused
    · cases refused
    · rename_i other
      cases refused
      exact if_pos (not_or.1 other)
  case trim =>
    split at refused
    · rename_i early
      cases refused
      exact if_pos early
    · cases refused
  case portSet | portTrace | portTraceLoss | blockSet | blockClear =>
    split at refused
    · rename_i early
      cases refused
      exact if_pos early
    · cases refused
  case holdCommit | holdRelease | poll | queryNode | queryLink | queryPort | queryOwnHold | queryOwnHoldLink =>
    exact unjoined refused
  all_goals cases refused

theorem requestOwner_of_notTaken {st : Station} {c : Instr} {x : RequestKind × Tag × Status}
    (refused : notTaken st c = some x) : ∃ own, requestOwner c = some own := by
  cases c <;> first | exact ⟨_, rfl⟩ | cases refused

end State

open State

/-- Settles O9, owner by owner. -/
theorem notTakenCompletesAtOnce : Obligations.NotTakenCompletesAtOnce := by
  unfold Obligations.NotTakenCompletesAtOnce
  intro c s kind tag status takes room refused
  obtain ⟨own, owner⟩ := requestOwner_of_notTaken refused
  rw [exec_taken owner takes room, posts_of_notTaken (s := s.accepted) owner refused, State.post_accepted]
  rfl

/-- Settles O6: the decision of a request that finds no place. -/
theorem busyLeavesNoTrace : Obligations.BusyLeavesNoTrace := by
  unfold Obligations.BusyLeavesNoTrace
  intro c s isOpen request full
  obtain ⟨own, owner⟩ := Option.isSome_iff_exists.1 ((requestOwner_isSome c).trans request)
  have busy : State.busyFor c { s with events := s.events + 1 } = true := by
    refine Bool.or_eq_true_iff.2 (full.imp (fun places => decide_eq_true places) ?_)
    rintro ⟨⟨tag, b, rfl⟩, queue⟩
    exact decide_eq_true queue
  rw [exec_request owner, s.transact_open _ isOpen, busy]
  rfl

theorem mem_ite_of_disjoint {p q r : Prop} [Decidable p] {n : Nat} {l m : List Nat} (here : n ∈ l ↔ q) (rest : n ∈ m ↔ r)
    (apart : p → ¬r) : n ∈ (if p then l else m) ↔ p ∧ q ∨ r := by
  split
  · rename_i is
    rw [here]
    exact ⟨fun h => .inl ⟨is, h⟩, fun h => (h.resolve_right (apart is)).2⟩
  · rename_i no
    rw [rest]
    exact ⟨.inr, fun h => h.resolve_left fun both => no both.1⟩

/-- The lengths of QUERY, by its subject (R188). -/
theorem mem_queryLengths (subject : Byte) (length : BitVec 16) : length.toNat ∈ (if subject = 0 then [3]
    else if subject = 1 then [4] else if subject = 2 then [1] else if subject = 3 then [1, 3] else [] : List Nat) ↔
    (subject = 0#8 ∧ length = 3#16 ∨ subject = 1#8 ∧ length = 4#16 ∨ subject = 2#8 ∧ length = 1#16 ∨
      subject = 3#8 ∧ (length = 1#16 ∨ length = 3#16)) := by
  have is (n : Nat) (lt : n < 65536) : length.toNat = n ↔ length = BitVec.ofNat 16 n := by
    rw [← BitVec.toNat_inj, BitVec.toNat_ofNat, Nat.mod_eq_of_lt lt]
  have one (n : Nat) (lt : n < 65536) : length.toNat ∈ [n] ↔ length = BitVec.ofNat 16 n := by
    rw [List.mem_singleton, is n lt]
  have two : length.toNat ∈ [1, 3] ↔ length = 1#16 ∨ length = 3#16 := by
    rw [List.mem_cons, is 1 (by decide), one 3 (by decide)]
  refine mem_ite_of_disjoint (one 3 (by decide)) ?_ (by rintro rfl; simp)
  refine mem_ite_of_disjoint (one 4 (by decide)) ?_ (by rintro rfl; simp)
  refine mem_ite_of_disjoint (one 1 (by decide)) ?_ (by rintro rfl; simp)
  exact (mem_ite_of_disjoint two (iff_false_intro List.not_mem_nil) fun _ => id).trans (iff_of_eq (or_false _))

theorem mem_permittedLengths (kind subject : Byte) (length : BitVec 16) : length.toNat ∈ permittedLengths kind subject ↔
    ((kind = 0x10#8 ∧ length = 5#16) ∨ (kind = 0x11#8 ∧ length = 16#16) ∨ (kind = 0x12#8 ∧ length = 10#16) ∨
      (kind = 0x13#8 ∧ length = 0#16) ∨ (kind = 0x14#8 ∧ length = 0#16) ∨ (kind = 0x20#8 ∧ length = 16#16) ∨
      (kind = 0x21#8 ∧ (length = 5#16 ∨ length = 1#16)) ∨ (kind = 0x30#8 ∧ length = 42#16) ∨
      (kind = 0x31#8 ∧ length = 2#16) ∨ (kind = 0x40#8 ∧ length = 1#16) ∨ (kind = 0x41#8 ∧ length = 1#16) ∨
      (kind = 0x42#8 ∧ length = 0#16) ∨ (kind = 0x43#8 ∧ length = 12#16) ∨ (kind = 0x50#8 ∧ length = 2#16) ∨
      (kind = 0x60#8 ∧ subject = 0#8 ∧ length = 3#16) ∨ (kind = 0x60#8 ∧ subject = 1#8 ∧ length = 4#16) ∨
      (kind = 0x60#8 ∧ subject = 2#8 ∧ length = 1#16) ∨
      (kind = 0x60#8 ∧ subject = 3#8 ∧ (length = 1#16 ∨ length = 3#16)) ∨ (kind = 0x70#8 ∧ length = 0#16)) := by
  have is (n : Nat) (lt : n < 65536) : length.toNat = n ↔ length = BitVec.ofNat 16 n := by
    rw [← BitVec.toNat_inj, BitVec.toNat_ofNat, Nat.mod_eq_of_lt lt]
  have one (n : Nat) (lt : n < 65536) : length.toNat ∈ [n] ↔ length = BitVec.ofNat 16 n := by
    rw [List.mem_singleton, is n lt]
  have two : length.toNat ∈ [5, 1] ↔ length = 5#16 ∨ length = 1#16 := by
    rw [List.mem_cons, is 5 (by decide), one 1 (by decide)]
  unfold permittedLengths
  refine mem_ite_of_disjoint (one 5 (by decide)) ?_ (by rintro rfl; simp)
  refine mem_ite_of_disjoint (one 16 (by decide)) ?_ (by rintro rfl; simp)
  refine mem_ite_of_disjoint (one 10 (by decide)) ?_ (by rintro rfl; simp)
  refine mem_ite_of_disjoint (one 0 (by decide)) ?_ (by rintro rfl; simp)
  refine mem_ite_of_disjoint (one 0 (by decide)) ?_ (by rintro rfl; simp)
  refine mem_ite_of_disjoint (one 16 (by decide)) ?_ (by rintro rfl; simp)
  refine mem_ite_of_disjoint two ?_ (by rintro rfl; simp)
  refine mem_ite_of_disjoint (one 42 (by decide)) ?_ (by rintro rfl; simp)
  refine mem_ite_of_disjoint (one 2 (by decide)) ?_ (by rintro rfl; simp)
  refine mem_ite_of_disjoint (one 1 (by decide)) ?_ (by rintro rfl; simp)
  refine mem_ite_of_disjoint (one 1 (by decide)) ?_ (by rintro rfl; simp)
  refine mem_ite_of_disjoint (one 0 (by decide)) ?_ (by rintro rfl; simp)
  refine mem_ite_of_disjoint (one 12 (by decide)) ?_ (by rintro rfl; simp)
  refine mem_ite_of_disjoint (one 2 (by decide)) ?_ (by rintro rfl; simp)
  rw [mem_ite_of_disjoint (mem_queryLengths subject length)
    (mem_ite_of_disjoint (p := kind = 0x70) (one 0 (by decide)) (iff_false_intro List.not_mem_nil) fun _ => id)
    (by rintro rfl; simp)]
  simp only [and_or_left, or_assoc, or_false]
  rfl

/-- Settles O7: the lengths of section 11.4, kind by kind. -/
theorem malformedLeavesNoTrace : Obligations.MalformedLeavesNoTrace := by
  unfold Obligations.MalformedLeavesNoTrace
  refine ⟨fun kind subject length s isOpen malformed => ?_, fun kind subject length => ?_⟩
  · show Host.Outcome.next (s.transact _) = _
    rw [s.transact_open _ isOpen, malformed]
    rfl
  · rw [headerMalformed, Bool.and_eq_true, bne_iff_ne, Bool.not_eq_true', ← Bool.not_eq_true, List.contains_iff_mem,
      mem_permittedLengths]
    exact Iff.rfl

/-- Settles O8. -/
theorem fetchSendsTheOldest : Obligations.FetchSendsTheOldest := by
  unfold Obligations.FetchSendsTheOldest
  have fetched (n : Nat) {s : State} (isOpen : s.portOpen) : exec (.fetch n) s =
      .next (State.replied (s.fetchAnswer.take n) { s with clp.completions := s.afterFetch n }) := by
    show Host.Outcome.next (s.transact _) = _
    rw [s.transact_open _ isOpen]
    rfl
  refine ⟨fun c rest n s isOpen queue all => ?_, fun c rest n s isOpen queue part => ?_, fun n s isOpen queue => ?_,
    fun s running => ?_, fun c s running busy kind => ?_, fun sent s port => ⟨fun k lt => ?_, fun n out => ?_⟩,
    fun n s port => ?_⟩
  · rw [fetched n isOpen, State.fetchAnswer, State.afterFetch, queue]
    dsimp only
    rw [if_pos all, List.take_of_length_le all]
  · rw [fetched n isOpen, State.fetchAnswer, State.afterFetch, queue]
    dsimp only
    rw [if_neg (Nat.not_le.2 part), ← queue]
  · rw [fetched n isOpen, State.fetchAnswer, State.afterFetch, queue]
    dsimp only
    rw [← queue]
    rfl
  · show Host.Outcome.next _ = _
    rw [running]
    rfl
  · rcases kind with request | ⟨n, rfl⟩ | ⟨k, subject, length, rfl⟩
    · obtain ⟨own, owner⟩ := Option.isSome_iff_exists.1 ((requestOwner_isSome c).trans request)
      rw [exec_request owner, s.transact_ignored _ running busy]
    · exact congrArg _ (s.transact_ignored _ running busy)
    · exact congrArg _ (s.transact_ignored _ running busy)
  · rw [State.sendOutput, port]
    dsimp only
    rw [if_neg (by omega), Int.toNat_natCast, List.getD_eq_getElem _ _ lt]
  · rw [State.sendOutput, port]
    dsimp only
    split
    · rfl
    · exact List.getD_eq_default _ _ (by omega)
  · refine s.sendOutput_filler n fun sent answering => ?_
    rcases port with is | is <;> rw [is] at answering <;> cases answering

/-- Settles O11. -/
theorem statusReportsAndClearsMarks : Obligations.StatusReportsAndClearsMarks := by
  unfold Obligations.StatusReportsAndClearsMarks
  have taken (tag : Tag) {s : State} (takes : s.takes) : exec (.status tag) s =
      .next { s.accepted.post (s.accepted.statusAnswer tag) with clp.marks := Conditions.none } :=
    exec_taken (c := .status tag) rfl takes nofun
  refine ⟨fun tag s takes joined => ?_, fun tag s takes unjoined => ?_, fun s => ?_⟩
  · have count : s.hu.holds.countP (fun h : Hold => !h.own) = s.peerHolds := List.countP_eq_length_filter
    rw [taken tag takes, State.post_accepted, State.statusAnswer, if_pos (show s.accepted.sc.station.joined = true from joined), count]
    rfl
  · rw [taken tag takes, State.post_accepted, State.statusAnswer,
      if_neg (show ¬s.accepted.sc.station.joined = true by rw [State.accepted_sc, unjoined]; nofun)]
    rfl
  · have ended : s.hu.slots.toList.any Slot.isEnded = true ↔ ∃ i n tag o, s.slot i = .ended n tag o := by
      rw [List.any_eq_true]
      constructor
      · rintro ⟨x, mem, is⟩
        obtain ⟨i, lt, rfl⟩ := Vector.mem_iff_getElem.1 (Vector.mem_toList_iff.1 mem)
        cases slot : s.hu.slots[i] with
        | ended n tag o => exact ⟨⟨i, lt⟩, n, tag, o, slot⟩
        | _ => rw [slot] at is; cases is
      · rintro ⟨i, n, tag, o, slot⟩
        exact ⟨s.slot i, Vector.mem_toList_iff.2 (Vector.getElem_mem i.isLt), by rw [slot]; rfl⟩
    rw [State.attention, Conditions.any, Bool.or_eq_true, Bool.or_eq_true, ended, Bool.not_eq_true', List.isEmpty_eq_false_iff]
    simp only [Bool.or_eq_true, or_assoc]

/-- Settles O5: a request, an event, and the commands of the port, each while the line is held. -/
theorem heldPartTakesNothing : Obligations.HeldPartTakesNothing := by
  unfold Obligations.HeldPartTakesNothing
  intro c s held notAssert notRelease
  have ignored (f : State → State) : s.transact f = { s with clp.select := true } := if_pos held
  cases owner : requestOwner c with
  | some own => exact ⟨true, s.clp.port, s.lac.activity, s.lac.echo, by rw [exec_request owner, ignored]⟩
  | none =>
    cases worked : eventWork c with
    | some work =>
      obtain ⟨activity, echo, same⟩ := exec_event_held worked held
      exact ⟨s.clp.select, s.clp.port, activity, echo, same⟩
    | none =>
      cases c <;> cases owner <;> cases worked
      case none.none.fetch.refl.refl => exact ⟨true, s.clp.port, s.lac.activity, s.lac.echo, congrArg _ (ignored _)⟩
      case none.none.malformed.refl.refl => exact ⟨true, s.clp.port, s.lac.activity, s.lac.echo, congrArg _ (ignored _)⟩
      case none.none.selectRelease.refl.refl =>
        exact ⟨false, .idle, s.lac.activity, s.lac.echo, congrArg Host.Outcome.next (by rw [held]; rfl)⟩
      case none.none.resetLineAssert.refl.refl => exact absurd rfl notAssert
      case none.none.resetLineRelease.refl.refl => exact absurd rfl notRelease

/-- Settles O3. -/
theorem resetLineClears : Obligations.ResetLineClears := by
  unfold Obligations.ResetLineClears
  refine ⟨fun s => ⟨_, rfl, rfl, rfl, rfl, fun i => Vector.getElem_replicate .., rfl, fun i => Vector.getElem_replicate .., rfl,
    rfl, rfl, rfl, rfl, rfl, rfl, fun n => rfl⟩, fun s held => ⟨congrArg Host.Outcome.next (if_pos held), fun n => ?_⟩, rfl⟩
  refine State.sendOutput_filler _ n fun sent port => ?_
  dsimp only at port
  split at port <;> cases port

end Sys2Proof.Machine

namespace Sys2Proof.Machine

/-! The bit time that passes while no command waits (log 1), and the events that fall in it. -/

theorem placeByKey_perm (x : Nat × Instr) (l : List (Nat × Instr)) : (placeByKey x l).Perm (x :: l) := by
  induction l with
  | nil => exact .refl _
  | cons y l ih =>
    unfold placeByKey
    split
    · exact .refl _
    · exact (ih.cons y).trans (.swap x y l)

/-- The events of one bit time are queued all, each once. -/
theorem tieOrder_perm (now : Nat) (l : List Instr) : (tieOrder now l).Perm l := by
  have placed (l acc : List (Nat × Instr)) : (l.foldl (fun acc x => placeByKey x acc) acc).Perm (acc ++ l) := by
    induction l generalizing acc with
    | nil => rw [List.append_nil]; exact .refl _
    | cons x l ih =>
      refine (ih _).trans (((placeByKey_perm x acc).append_right l).trans ?_)
      exact (List.perm_middle (l₁ := acc) (l₂ := l) (a := x)).symm
  have all : (l.mapIdx fun i c => (Config.tieKey now i, c)).map Prod.snd = l := by
    refine List.ext_getElem? fun i => ?_
    rw [List.getElem?_map, List.getElem?_mapIdx, Option.map_map]
    exact Option.map_id'
  have := (placed (l.mapIdx fun i c => (Config.tieKey now i, c)) []).map Prod.snd
  rwa [List.nil_append, all] at this

theorem mem_ite_singleton {α : Type} {p : Prop} [Decidable p] {x y : α} : y ∈ (if p then [x] else []) ↔ y = x ∧ p := by
  split <;> simp [*]

namespace State

variable {s : State} {c : Instr}

theorem mem_riEvents : c ∈ s.riEvents ↔ c = .riTick ∧ ∃ e, s.sc.riTimer = some e ∧ s.riBits ≤ e := by
  unfold State.riEvents
  cases s.sc.riTimer with
  | none => simp
  | some e => simp [and_comm]

theorem mem_watchEvents : c ∈ s.watchEvents ↔
    c = .silenceWatchExpiry ∧ ∃ e, s.lac.watch = .running e ∧ s.watchBits ≤ e := by
  unfold State.watchEvents
  cases s.lac.watch with
  | running e => simp [and_comm]
  | _ => simp

/-- The lifetime of a LIVE slot's record has run out. -/
theorem lifetimeLeft_eq_zero (ok : s.HoldsOk) {i : Fin 8} {sub : Substate} {n : BitVec 8} {tag : Tag}
    (slot : s.slot i = .live sub n tag) : s.lifetimeLeft n = 0 ↔
      ∃ h ∈ s.hu.holds, h.own = true ∧ h.number = n ∧ (h.lifetime = some 0 ∨ h.lifetime = none) := by
  obtain ⟨h, stored, mine, -, number, found⟩ := ok.ownHold_live slot
  have ends : s.lifetimeLeft n = 0 ↔ h.lifetime = some 0 ∨ h.lifetime = none := by
    rw [State.lifetimeLeft, found, Option.bind_some]
    cases h.lifetime with
    | none => simp
    | some l => exact ⟨fun zero => .inl (congrArg some zero), fun ends => Option.some.inj (ends.resolve_right nofun)⟩
  rw [ends]
  constructor
  · exact fun none => ⟨h, stored, mine, number, none⟩
  · rintro ⟨x, stored', mine', number', none⟩
    rwa [HoldTables.own_inj ok.with stored stored' mine mine' (number.trans number'.symm)]

theorem mem_slotEvents (ok : s.HoldsOk) (i : Fin 8) : c ∈ s.slotEvents i ↔
    (∃ e commit n tag, c = .contestExpiry i ∧ s.slot i = .live (.announced e commit) n tag ∧ s.contestBits ≤ e) ∨
    (∃ n tag, c = .holdLifetimeExpiry i ∧ (s.slot i = .live .held n tag ∨ s.slot i = .live .committed n tag) ∧
      ∃ h ∈ s.hu.holds, h.own = true ∧ h.number = n ∧ (h.lifetime = some 0 ∨ h.lifetime = none)) := by
  have lives {sub : Substate} {n : BitVec 8} {tag : Tag} (slot : s.slot i = .live sub n tag) (runs : sub = .held ∨ sub = .committed) :
      c ∈ (if s.lifetimeLeft n = 0 then [Instr.holdLifetimeExpiry i] else []) ↔
      ∃ m t, c = .holdLifetimeExpiry i ∧ (Slot.live sub n tag = .live .held m t ∨ Slot.live sub n tag = .live .committed m t) ∧
        ∃ h ∈ s.hu.holds, h.own = true ∧ h.number = m ∧ (h.lifetime = some 0 ∨ h.lifetime = none) := by
    rw [mem_ite_singleton, lifetimeLeft_eq_zero ok slot]
    constructor
    · exact fun ⟨is, ends⟩ => ⟨n, tag, is, runs.imp (fun same => by rw [same]) (fun same => by rw [same]), ends⟩
    · rintro ⟨m, t, is, same | same, ends⟩ <;> cases same <;> exact ⟨is, ends⟩
  unfold State.slotEvents
  cases slot : s.slot i with
  | live sub n tag =>
    cases sub with
    | held => exact (lives slot (.inl rfl)).trans (by simp)
    | committed => exact (lives slot (.inr rfl)).trans (by simp)
    | announced e commit => simp [and_comm]
    | _ => simp
  | _ => simp

theorem mem_allSlotEvents (ok : s.HoldsOk) : c ∈ allSlots.flatMap s.slotEvents ↔
    (∃ i e commit n tag, c = .contestExpiry i ∧ s.slot i = .live (.announced e commit) n tag ∧ s.contestBits ≤ e) ∨
    (∃ i n tag, c = .holdLifetimeExpiry i ∧ (s.slot i = .live .held n tag ∨ s.slot i = .live .committed n tag) ∧
      ∃ h ∈ s.hu.holds, h.own = true ∧ h.number = n ∧ (h.lifetime = some 0 ∨ h.lifetime = none)) := by
  rw [List.mem_flatMap, ← exists_or]
  refine exists_congr fun i => ?_
  rw [mem_slotEvents ok]
  exact and_iff_right (mem_allSlots i)

theorem mem_peerEvents : c ∈ s.peerEvents ↔ ∃ h ∈ s.hu.holds, h.own = false ∧ h.lifetime = some 0 ∧
    c = .peerLifetimeExpiry (BitVec.ofNat 16 h.origin) h.number := by
  simp only [State.peerEvents, List.mem_map, List.mem_filter, Bool.and_eq_true, Bool.not_eq_true', beq_iff_eq, and_assoc,
    eq_comm (a := c)]

theorem mem_allPlaces (p : Fin 10) : p ∈ allPlaces := by
  revert p
  decide

/-- An entry starts exactly where some entry may start (R8). -/
theorem firstStartable_isSome : s.firstStartable.isSome = true ↔ ∃ p, s.mayStart p = true := by
  constructor
  · intro some
    obtain ⟨p, first⟩ := Option.isSome_iff_exists.1 some
    exact ⟨p, mayStart_of_firstStartable first⟩
  · rintro ⟨p, may⟩
    unfold State.firstStartable
    generalize hf : (fun (best : Option (Fin 10)) (p : Fin 10) => _) = f
    have kept (best : Option (Fin 10)) (q : Fin 10) (ok : best.isSome = true ∨ s.mayStart q = true) : (f best q).isSome = true := by
      subst hf
      dsimp only
      split
      · split
        · rfl
        · split
          · split <;> rfl
          · rfl
      · rename_i no
        exact ok.resolve_right no
    have found (l : List (Fin 10)) (best : Option (Fin 10)) (ok : best.isSome = true ∨ p ∈ l) : (l.foldl f best).isSome = true := by
      induction l generalizing best with
      | nil => exact ok.resolve_right List.not_mem_nil
      | cons q l ih =>
        refine ih _ ?_
        rcases ok with already | inl
        · exact .inl (kept best q (.inl already))
        · rcases List.mem_cons.1 inl with rfl | later
          · exact .inl (kept best p (.inr may))
          · exact .inr later
    exact found allPlaces none (.inr (mem_allPlaces p))

theorem mem_lineEvents : c ∈ s.lineEvents ↔ (c = .attemptStart 0 ∧ s.lac.attempt = none ∧ ∃ p, s.mayStart p = true) ∨
    (c = .echoLost ∧ ∃ a n, s.lac.attempt = some a ∧ a.startedAt + n + 8 ≤ s.now ∧ s.echoLoss a = some n) := by
  unfold State.lineEvents
  cases s.lac.attempt with
  | none => simp [firstStartable_isSome, and_comm]
  | some a =>
    cases loss : s.echoLoss a with
    | none => simp [loss]
    | some n =>
      simp only [loss]
      rw [mem_ite_singleton]
      simp [loss, abortBits]

theorem mem_searchEvents : c ∈ s.searchEvents ↔ (c = .searchStart ∧ s.psu.context = none ∧ s.psu.queue ≠ []) ∨
    (∃ x, s.psu.context = some x ∧ ((x.abortTag ≠ none ∧ c = .searchAbortEnd) ∨
      (x.abortTag = none ∧ ((x.phase = .passStart ∧ c = .passStart) ∨
        (x.phase = .selecting ∧ c = .selectionStep) ∨ (x.phase = .completing ∧ c = .searchCompletion))))) := by
  unfold State.searchEvents
  cases s.psu.context with
  | none => cases s.psu.queue <;> simp
  | some x =>
    cases tag : x.abortTag with
    | some t => simp [tag]
    | none => cases phase : x.phase <;> simp [tag, phase]

theorem echoLoss_elapse (a : Attempt) (n : Nat) : (s.elapse 1).echoLoss a = some n ↔
    s.lac.sending.bind Transmission.cut = some n ∨
      (s.lac.sending.bind Transmission.cut = none ∧ s.lac.echo = false ∧ n = 12 ∧ a.startedAt + 12 ≤ (s.elapse 1).now) := by
  rw [State.echoLoss_eq_some]
  refine or_congr Iff.rfl (and_congr_right fun _ => and_congr_right fun _ => and_comm)

/-- A hold's lifetime is suspended while its slot is COMMITTING (R90). -/
theorem suspended_iff {h : Hold} : s.suspended h = true ↔
    h.own = true ∧ ∃ i commit tag, s.slot i = .live (.committing commit) h.number tag := by
  rw [State.suspended, Bool.and_eq_true, List.any_eq_true]
  refine and_congr_right fun _ => ⟨?_, ?_⟩
  · rintro ⟨x, mem, suspends⟩
    obtain ⟨i, lt, rfl⟩ := Vector.mem_iff_getElem.1 (Vector.mem_toList_iff.1 mem)
    unfold Slot.suspends at suspends
    split at suspends
    · rename_i commit n tag slot
      rw [beq_iff_eq] at suspends
      exact ⟨⟨i, lt⟩, commit, tag, suspends ▸ slot⟩
    · cases suspends
  · rintro ⟨i, commit, tag, slot⟩
    exact ⟨s.slot i, Vector.mem_toList_iff.2 (Vector.getElem_mem i.isLt), by rw [slot]; exact beq_self_eq_true _⟩

/-- The state after an idle bit time, in which the events that then fall are queued. -/
def ticked (s : State) : State := { s.elapse 1 with pending := tieOrder (s.elapse 1).now (s.elapse 1).ownEvents }

theorem step_idle (nothing : s.pending = []) (running : s.resetHeld = false) : step s = .next s.ticked := by
  unfold step State.idleTick
  rw [nothing, if_neg (by rw [running]; nofun)]
  rfl

theorem ticked_holds (k : Nat) : s.ticked.hu.holds[k]? =
    s.hu.holds[k]?.map (fun h => if s.suspended h then h else h.after 1) := List.getElem?_map ..

/-- The events that fall in a bit time (log 2). -/
theorem mem_ownEvents (ok : s.HoldsOk) : c ∈ (s.elapse 1).ownEvents ↔
    (c = .riTick ∧ ∃ e, s.ticked.sc.riTimer = some e ∧ s.timing.ri * 1000000 ≤ e) ∨
    (c = .silenceWatchExpiry ∧ ∃ e, s.ticked.lac.watch = .running e ∧ s.timing.watch * 1000 ≤ e) ∨
    (∃ i e commit n tag, c = .contestExpiry i ∧ s.ticked.slot i = .live (.announced e commit) n tag ∧
      s.timing.contest * 1000 ≤ e) ∨
    (∃ i n tag, c = .holdLifetimeExpiry i ∧ (s.ticked.slot i = .live .held n tag ∨ s.ticked.slot i = .live .committed n tag) ∧
      ∃ h ∈ s.ticked.hu.holds, h.own = true ∧ h.number = n ∧ (h.lifetime = some 0 ∨ h.lifetime = none)) ∨
    (∃ h ∈ s.ticked.hu.holds, h.own = false ∧ h.lifetime = some 0 ∧
      c = .peerLifetimeExpiry (BitVec.ofNat 16 h.origin) h.number) ∨
    (c = .attemptStart 0 ∧ s.lac.attempt = none ∧ ∃ p, s.ticked.mayStart p = true) ∨
    (c = .echoLost ∧ ∃ a n, s.lac.attempt = some a ∧ a.startedAt + n + 8 ≤ s.ticked.now ∧
      (s.lac.sending.bind Transmission.cut = some n ∨
        (s.lac.sending.bind Transmission.cut = none ∧ s.lac.echo = false ∧ n = 12))) ∨
    (c = .searchStart ∧ s.psu.context = none ∧ s.psu.queue ≠ []) ∨
    (∃ x, s.psu.context = some x ∧ ((x.abortTag ≠ none ∧ c = .searchAbortEnd) ∨
      (x.abortTag = none ∧ ((x.phase = .passStart ∧ c = .passStart) ∨
        (x.phase = .selecting ∧ c = .selectionStep) ∨ (x.phase = .completing ∧ c = .searchCompletion))))) := by
  have line : c ∈ (s.elapse 1).lineEvents ↔
      (c = .attemptStart 0 ∧ s.lac.attempt = none ∧ ∃ p, s.ticked.mayStart p = true) ∨
      (c = .echoLost ∧ ∃ a n, s.lac.attempt = some a ∧ a.startedAt + n + 8 ≤ s.ticked.now ∧
        (s.lac.sending.bind Transmission.cut = some n ∨
          (s.lac.sending.bind Transmission.cut = none ∧ s.lac.echo = false ∧ n = 12))) := by
    refine mem_lineEvents.trans (or_congr Iff.rfl (and_congr_right fun _ => exists₂_congr fun a n => and_congr_right fun _ =>
      and_congr_right fun late => (echoLoss_elapse a n).trans (or_congr Iff.rfl (and_congr_right fun _ => and_congr_right fun _ =>
        and_iff_left_of_imp fun twelve => ?_))))
    rw [twelve] at late
    exact (by omega : _ ≤ a.startedAt + 12 + 8).trans late
  rw [State.ownEvents, List.mem_append, List.mem_append, List.mem_append, List.mem_append, List.mem_append, mem_riEvents,
    mem_watchEvents, mem_allSlotEvents (ok.elapse 1), mem_peerEvents, line, mem_searchEvents]
  simp only [or_assoc]
  exact Iff.rfl

end State

open State

/-- Settles O2: the bit time field by field, and the events that fall block by block. -/
theorem emptyQueuePassesABitTime : Obligations.EmptyQueuePassesABitTime := by
  unfold Obligations.EmptyQueuePassesABitTime
  intro s nothing
  refine ⟨fun held => ?_, fun running => ⟨s.ticked, step_idle nothing running, ?_, tieOrder_perm _ _, ?_, fun i => ?_,
    List.length_map .., fun k h at_ => ⟨fun waits => ?_, fun runs => ?_⟩, fun ok c => ?_⟩⟩
  · unfold step State.idleTick
    rw [nothing, if_pos held]
  · have none : (s.elapse 1).pending = [] := nothing
    show { s.elapse 1 with pending := [] } = s.elapse 1
    rw [← none]
  · unfold State.ticked State.elapse
    cases s.lac.watch <;> rfl
  · refine (State.elapse_slot s 1 i).trans ?_
    cases s.slot i with
    | live sub n tag => cases sub <;> rfl
    | _ => rfl
  · rw [ticked_holds, at_, Option.map_some, if_pos (suspended_iff.2 waits)]
  · rw [ticked_holds, at_, Option.map_some, if_neg fun is => runs (suspended_iff.1 is)]
    rfl
  · exact (tieOrder_perm _ _).mem_iff.trans (mem_ownEvents ok)

end Sys2Proof.Machine

namespace Sys2Proof.Machine

/-! The figures of paths and penalties (R75, R76, R146, R155, R156), and the backoff (R13). -/

theorem ceilDiv_eq (a : Nat) {d : Nat} (pos : 0 < d) : ceilDiv a d = (a + (d - 1)) / d := by
  have split := Nat.div_add_mod a d
  have lt := Nat.mod_lt a pos
  unfold ceilDiv
  split
  · rename_i whole
    rw [whole, Nat.add_zero] at split
    conv_rhs => rw [← split, Nat.mul_add_div pos, Nat.div_eq_of_lt (show d - 1 < d by omega), Nat.add_zero]
  · rename_i part
    have rest : (a % d + (d - 1)) / d = 1 := by
      rw [Nat.div_eq_iff pos]
      omega
    conv_rhs => rw [← split, Nat.add_assoc, Nat.mul_add_div pos, rest]

theorem effectivePenalty_eq (penalty : Nat) (trim : Int) :
    effectivePenalty penalty trim = min 65535 ((penalty * (32 + trim).toNat + 31) / 32) := by
  rw [effectivePenalty, ceilDiv_eq _ (by decide)]
  rfl

theorem linkNoise_eq (load : Nat) (p : Profile) : linkNoise load p = min 65535 ((load * p.factor + 8191) / 8192) := by
  rw [linkNoise, ceilDiv_eq _ (by decide)]
  rfl

/-- A profile's factor is 24 to 39,897 (R76). -/
theorem factor_bounds {p : Profile} (h : p.inRange) : 24 ≤ p.factor ∧ p.factor ≤ 39897 := by
  obtain ⟨least, most, -, -, -, lo, hi, -⟩ := h
  constructor
  · exact Nat.mul_le_mul least (show 24 ≤ (32 + p.noiseTrim).toNat by omega)
  · exact Nat.mul_le_mul most (show (32 + p.noiseTrim).toNat ≤ 39 by omega)

theorem margin_eq {budget noise : Nat} (capped : budget ≠ 1048575) (noisy : noise ≠ 0) :
    margin budget noise = min 65535 (budget * 256 / noise) := by
  unfold margin
  rw [if_neg (show budget ≠ noiseLimit from capped), if_neg noisy]

/-- Settles O14: each figure by its bounds. -/
theorem figuresAreExact : Obligations.FiguresAreExact := by
  unfold Obligations.FiguresAreExact
  refine ⟨fun penalty trim most lo hi => ?_, fun p range => ⟨rfl, factor_bounds range⟩, fun load p most range => ?_,
    fun budget noise most => ⟨fun free => ?_, fun capped noisy => ?_, fun noisy within => ?_⟩, fun dmin dmax d =>
    ⟨rfl, fun lo hi => ?_, fun window => ?_⟩⟩
  · have product : penalty * (32 + trim).toNat ≤ 65535 * 39 := Nat.mul_le_mul most (by omega)
    refine ⟨effectivePenalty_eq penalty trim, product, ?_, ?_, fun negative => ?_, fun some => ?_⟩
    · rw [effectivePenalty_eq]
      show min 65535 ((penalty * 32 + 31) / 32) = penalty
      omega
    · rw [effectivePenalty_eq, Nat.zero_mul]
      decide
    · have less : penalty * (32 + trim).toNat ≤ penalty * 31 := Nat.mul_le_mul_left _ (by omega)
      rw [effectivePenalty_eq]
      omega
    · have more : penalty * 24 ≤ penalty * (32 + trim).toNat := Nat.mul_le_mul_left _ (by omega)
      rw [effectivePenalty_eq]
      omega
  · obtain ⟨least, -⟩ := factor_bounds range
    refine ⟨linkNoise_eq load p, fun one => ?_, fun none => ?_, fun some => ?_⟩
    · rw [linkNoise_eq, one]
      omega
    · rw [linkNoise_eq, none, Nat.zero_mul]
      decide
    · have more : 1 * 1 ≤ load * p.factor := Nat.mul_le_mul (by omega) (by omega)
      rw [linkNoise_eq]
      omega
  · unfold margin
    rcases free with unlimited | silent
    · exact if_pos unlimited
    · rw [if_pos silent, ite_self]
  · have pos : 0 < noise := by omega
    rw [margin_eq capped noisy]
    refine ⟨Nat.min_le_left .., ?_, fun below => ?_⟩
    · exact (Nat.mul_le_mul_right _ (Nat.min_le_right ..)).trans (Nat.div_mul_le_self ..)
    · rw [Nat.min_eq_right (by omega), Nat.mul_comm _ noise]
      exact Nat.lt_mul_div_succ _ pos
  · by_cases unlimited : budget = 1048575
    · rw [margin, if_pos (show budget = noiseLimit from unlimited)]
      decide
    · rw [margin_eq unlimited noisy]
      refine Nat.le_min.2 ⟨by decide, (Nat.le_div_iff_mul_le (by omega)).2 ?_⟩
      rw [Nat.mul_comm]
      exact Nat.mul_le_mul_right _ within
  · unfold headroom
    omega
  · unfold headroom
    omega

/-- The generator never reaches 0 (R13): a shift that drops the low bit feeds it back at the top. -/
theorem advanceLfsr_ne_zero {r : BitVec 16} (some : r ≠ 0#16) : advanceLfsr r ≠ 0#16 := by
  unfold advanceLfsr
  split
  · intro zero
    have top := congrArg (fun x : BitVec 16 => x.getLsbD 15) zero
    simp [BitVec.getLsbD_of_ge] at top
  · rename_i even
    intro zero
    refine some (BitVec.eq_of_getLsbD_eq fun i lt => ?_)
    cases i with
    | zero => simpa using even
    | succ i =>
      have := congrArg (fun x : BitVec 16 => x.getLsbD i) zero
      simpa [Nat.add_comm] using this

/-- Settles O43. -/
theorem backoffStaysInBounds : Obligations.BackoffStaysInBounds := by
  unfold Obligations.BackoffStaysInBounds
  refine ⟨fun r => advanceLfsr_ne_zero, fun r n => ⟨r.toNat % 2 ^ min n 5, rfl, Nat.mod_lt _ (Nat.two_pow_pos _), ?_⟩⟩
  have lt : r.toNat % 2 ^ min n 5 < 2 ^ min n 5 := Nat.mod_lt _ (Nat.two_pow_pos _)
  have most : 2 ^ min n 5 ≤ 2 ^ 5 := Nat.pow_le_pow_right (by decide) (Nat.min_le_right ..)
  rw [backoffBits]
  omega

end Sys2Proof.Machine

namespace Sys2Proof.Machine

/-! What the queries read (R38, R39, R52, R53), and the port requests before the membership (R43 to R48). -/

namespace Table

variable {α : Type} {key : α → Nat}

/-- The record of least key above a key. -/
theorem next_eq_some {l : List α} (sorted : Sorted key l) {k : Nat} {x : α} (stored : x ∈ l) (above : k < key x)
    (least : ∀ y ∈ l, k < key y → key x ≤ key y) : next key k l = some x := by
  unfold next
  induction l with
  | nil => cases stored
  | cons y l ih =>
    obtain ⟨first, sorted⟩ := sorted_cons.1 sorted
    rw [List.find?_cons]
    split
    · rename_i here
      rcases List.mem_cons.1 stored with rfl | later
      · rfl
      · have := least y (.head _) (of_decide_eq_true here)
        have := first x later
        omega
    · rename_i below
      rcases List.mem_cons.1 stored with rfl | later
      · exact absurd above (of_decide_eq_false below)
      · exact ih sorted later fun z mem => least z (.tail _ mem)

theorem next_eq_none {l : List α} {k : Nat} (none : ∀ y ∈ l, key y ≤ k) : next key k l = .none :=
  List.find?_eq_none.2 fun y mem => by
    have := none y mem
    simpa using this

end Table

/-- Link keys stand in the order of node and port. -/
theorem LinkKey.code_lt {a b : LinkKey} (ha : a.port < 256) (hb : b.port < 256) :
    a.code < b.code ↔ a.node < b.node ∨ (a.node = b.node ∧ a.port < b.port) := by
  unfold LinkKey.code
  omega

namespace State

variable {s : State}

/-- A query from LISTENING on is answered at once. -/
theorem exec_query {c : Instr} {kind : RequestKind} {tag : Tag} {answer : State → Completion}
    (owner : requestOwner c = some (fun s => s.whenJoined kind tag (fun s => s.post (answer s))))
    (notPath : (∃ tag b, c = .path tag b) → False) (takes : s.takes) (joined : s.sc.station.joined = true) :
    exec c s = .next (s.answered (answer s.accepted)) := by
  rw [exec_taken owner takes fun path => (notPath path).elim, State.answered_eq]
  exact congrArg _ (if_pos (show s.accepted.sc.station.joined = true from joined))

theorem nodeAnswer_found {next : Bool} {node : Nat} (named : ¬(node = 65535 ∨ (next = false ∧ node = 0))) (tag : Tag)
    {r : NodeRecord} (found : s.findNode next node = some r) : s.nodeAnswer tag next node =
      ⟨.query .node, tag, .ok, .none, false, .node r (s.tv.links.countP (fun l => l.key.node == r.id))
        (s.tv.links.countP (fun l => l.key.node == r.id && l.verified))⟩ := by
  have links : s.tv.links.countP (fun l => l.key.node == r.id) = (linkSet r.id s.tv.links).length :=
    List.countP_eq_length_filter
  have verified : s.tv.links.countP (fun l => l.key.node == r.id && l.verified) =
      ((linkSet r.id s.tv.links).filter LinkRecord.verified).length := by
    rw [List.countP_eq_length_filter, linkSet, List.filter_filter]
    refine congrArg List.length (List.filter_congr fun l _ => Bool.and_comm _ _)
  rw [State.nodeAnswer, if_neg named, found, links, verified]
  rfl

theorem nodeAnswer_missing {next : Bool} {node : Nat} (named : ¬(node = 65535 ∨ (next = false ∧ node = 0))) (tag : Tag)
    (missing : s.findNode next node = none) :
    s.nodeAnswer tag next node = ⟨.query .node, tag, .notFound, .none, false, .none⟩ := by
  rw [State.nodeAnswer, if_neg named, missing]
  rfl

theorem linkAnswer_found {next : Bool} {k : LinkKey} (named : ¬(15 < k.port ∨ k.node = 65535 ∨ (next = false ∧ k.node = 0)))
    (tag : Tag) {l : LinkRecord} (found : s.findLink next k = some l) :
    s.linkAnswer tag next k = ⟨.query .link, tag, .ok, .none, false, .link l⟩ := by
  rw [State.linkAnswer, if_neg named, found]
  rfl

theorem linkAnswer_missing {next : Bool} {k : LinkKey}
    (named : ¬(15 < k.port ∨ k.node = 65535 ∨ (next = false ∧ k.node = 0))) (tag : Tag) (missing : s.findLink next k = none) :
    s.linkAnswer tag next k = ⟨.query .link, tag, .notFound, .none, false, .none⟩ := by
  rw [State.linkAnswer, if_neg named, missing]
  rfl

theorem node_eq_iff (node : BitVec 16) {n : Nat} (lt : n < 65536) : node.toNat = n ↔ node = BitVec.ofNat 16 n := by
  rw [← BitVec.toNat_inj, BitVec.toNat_ofNat, Nat.mod_eq_of_lt lt]

/-- A node that a query may name in its mode (R38). -/
theorem named_iff (node : BitVec 16) (next : Bool) : (node.toNat = 65535 ∨ (next = false ∧ node.toNat = 0)) ↔
    (node = 0xFFFF#16 ∨ (next = false ∧ node = 0#16)) := by
  rw [node_eq_iff node (by decide), node_eq_iff node (by decide)]

end State

open State

/-- Settles O27: the tables are read by their keys. -/
theorem queriesReadTheView : Obligations.QueriesReadTheView := by
  unfold Obligations.QueriesReadTheView
  have ranged {node : BitVec 16} {next : Bool} (notLast : node ≠ 0xFFFF#16) (notFirst : next = false → node ≠ 0#16) :
      ¬(node.toNat = 65535 ∨ (next = false ∧ node.toNat = 0)) := by
    rw [named_iff]
    rintro (last | ⟨exact_, first⟩)
    · exact notLast last
    · exact notFirst exact_ first
  have linkRanged {node : BitVec 16} {port : Byte} {next : Bool} (fitted : port.toNat ≤ 15) (notLast : node ≠ 0xFFFF#16)
      (notFirst : next = false → node ≠ 0#16) :
      ¬(15 < (readKey node port).port ∨ (readKey node port).node = 65535 ∨ (next = false ∧ (readKey node port).node = 0)) :=
    not_or.2 ⟨Nat.not_lt.2 fitted, ranged notLast notFirst⟩
  refine ⟨fun tag node mode r s takes joined form notLast notFirst stored named least => ?_,
    fun tag node mode s takes joined notLast notFirst missing => ?_, fun tag node mode s takes joined refused => ?_,
    fun tag node port mode l s takes joined form fitted notLast notFirst stored named least => ?_,
    fun tag node port mode s takes joined form fitted notLast notFirst missing => ?_,
    fun tag node port mode s takes joined refused => ?_⟩
  · rw [exec_query (c := .queryNode tag node mode) rfl nofun takes joined]
    refine congrArg (fun c => Host.Outcome.next (s.answered c)) (nodeAnswer_found (ranged notLast notFirst) tag ?_)
    unfold State.findNode
    split
    · rename_i next
      obtain ⟨above, least⟩ := least next
      exact Table.next_eq_some form.nodesSorted stored above least
    · rename_i exact_
      exact (Table.lookup_eq_some form.nodesSorted).2 ⟨stored, named (Bool.eq_false_of_not_eq_true exact_)⟩
  · rw [exec_query (c := .queryNode tag node mode) rfl nofun takes joined]
    refine congrArg (fun c => Host.Outcome.next (s.answered c)) (nodeAnswer_missing (ranged notLast notFirst) tag ?_)
    unfold State.findNode
    split
    · rename_i next
      exact Table.next_eq_none fun x mem => by
        have := missing x mem
        rwa [if_pos next] at this
    · rename_i exact_
      exact Table.lookup_eq_none.2 fun x mem => by
        have := missing x mem
        rwa [if_neg exact_] at this
  · rw [exec_query (c := .queryNode tag node mode) rfl nofun takes joined]
    exact congrArg (fun c => Host.Outcome.next (s.answered c)) (if_pos ((named_iff node (mode.getLsbD 0)).2 refused))
  · rw [exec_query (c := .queryLink tag node port mode) rfl nofun takes joined]
    refine congrArg (fun c => Host.Outcome.next (s.answered c)) (linkAnswer_found (linkRanged fitted notLast notFirst) tag ?_)
    have ports {x : LinkRecord} (mem : x ∈ s.tv.links) : x.key.port < 256 := (form.tables.fromPorts x mem).trans_lt (by decide)
    have port' : (readKey node port).port < 256 := fitted.trans_lt (by decide)
    unfold State.findLink
    split
    · rename_i next
      obtain ⟨above, least⟩ := least next
      refine Table.next_eq_some form.linksSorted stored ((LinkKey.code_lt port' (ports stored)).2 above) fun x mem higher => ?_
      have := least x mem ((LinkKey.code_lt port' (ports mem)).1 higher)
      by_contra less
      have := (LinkKey.code_lt (ports mem) (ports stored)).1 (Nat.lt_of_not_le less)
      omega
    · rename_i exact_
      exact (Table.lookup_eq_some form.linksSorted).2
        ⟨stored, congrArg LinkKey.code (named (Bool.eq_false_of_not_eq_true exact_))⟩
  · rw [exec_query (c := .queryLink tag node port mode) rfl nofun takes joined]
    refine congrArg (fun c => Host.Outcome.next (s.answered c)) (linkAnswer_missing (linkRanged fitted notLast notFirst) tag ?_)
    have ports {x : LinkRecord} (mem : x ∈ s.tv.links) : x.key.port < 256 := (form.tables.fromPorts x mem).trans_lt (by decide)
    have port' : (readKey node port).port < 256 := fitted.trans_lt (by decide)
    unfold State.findLink
    split
    · rename_i next
      refine Table.next_eq_none fun x mem => Nat.le_of_not_lt fun higher => ?_
      have := missing x mem
      rw [if_pos next] at this
      rcases (LinkKey.code_lt port' (ports mem)).1 higher with later | ⟨same, later⟩
      · simp only [readKey] at later
        omega
      · simp only [readKey] at same later
        omega
    · rename_i exact_
      refine Table.lookup_eq_none.2 fun x mem same => ?_
      have := missing x mem
      rw [if_neg exact_] at this
      exact this (LinkKey.code_inj (ports mem) port' same)
  · rw [exec_query (c := .queryLink tag node port mode) rfl nofun takes joined]
    exact congrArg (fun c => Host.Outcome.next (s.answered c))
      (if_pos (refused.imp_right (named_iff node (mode.getLsbD 0)).2))

namespace State

variable {s : State} {p : Nat}

theorem port_eq (fitted : p < 16) : s.port p = s.pt.ports[p] := by
  simp [State.port, Vector.getD, fitted]

theorem setPort_eq (fitted : p < 16) (r : PortRecord) : s.setPort p r = { s with pt.ports := s.pt.ports.set p r } := by
  have inBounds : s.pt.ports.setIfInBounds p r = s.pt.ports.set p r :=
    Vector.ext fun i lt => by rw [Vector.getElem_setIfInBounds lt, Vector.getElem_set]
  rw [State.setPort, inBounds]

/-- Before the membership a port record is written, and no more (R48). -/
theorem changePort_unjoined (fitted : p < 16) (r : PortRecord) (unjoined : s.sc.station.joined = false) :
    s.changePort p r = { s with pt.ports := s.pt.ports.set p r } := by
  unfold State.changePort
  rw [if_neg (show ¬s.sc.station.joined = true by rw [unjoined]; nofun), setPort_eq fitted]
  split
  · rename_i same
    rw [← same, port_eq fitted, Vector.set_getElem_self]
  · rfl

/-- A port request on a fitted port reaches its work (R43). -/
theorem onPort_fitted {kind : RequestKind} {tag : Tag} {act : State → State} (station : s.sc.station ≠ .unconfigured)
    (lt : p < 16) (fitted : p < s.portCount) : s.onPort kind tag p act = act s := by
  rw [State.onPort, if_neg station, if_neg (by omega)]

theorem onPort_refused {kind : RequestKind} {tag : Tag} {act : State → State} (station : s.sc.station ≠ .unconfigured)
    (unfitted : 15 < p ∨ s.portCount ≤ p) :
    s.onPort kind tag p act = s.post ⟨kind, tag, .refused, .range, false, .none⟩ := by
  rw [State.onPort, if_neg station, if_pos unfitted]
  rfl

theorem written_eq (r : PortRecord) (enabled : Byte) (cost noise dispersion : BitVec 16) (used : SlotMap) :
    r.written enabled cost noise dispersion used =
      ⟨enabled.getLsbD 0, max 1 cost.toNat, noise.toNat, dispersion.toInt, used, r.trace⟩ := rfl

theorem exec_portSet (takes : s.takes) (station : s.sc.station ≠ .unconfigured) {port : Byte} (lt : port.toNat < 16)
    (fitted : port.toNat < s.portCount) (tag : Tag) (enabled : Byte) (cost noise dispersion : BitVec 16) (used : SlotMap) :
    exec (.portSet tag port enabled cost noise dispersion used) s =
      .next ((s.accepted.changePort port.toNat ((s.pt.ports[port.toNat]).written enabled cost noise dispersion used)).post
        ⟨.portSet, tag, if cost = 0#16 then .clamped else .ok, .none, false,
          .port port.toNat ((s.pt.ports[port.toNat]).written enabled cost noise dispersion used)⟩) := by
  rw [exec_taken (c := .portSet ..) rfl takes nofun]
  refine congrArg _ ((onPort_fitted (s := s.accepted) station lt fitted).trans ?_)
  rw [port_eq lt]
  rfl

theorem exec_portTrace (takes : s.takes) (station : s.sc.station ≠ .unconfigured) {port : Byte} (lt : port.toNat < 16)
    (fitted : port.toNat < s.portCount) (tag : Tag) (word : BitVec 32) : exec (.portTrace tag port word) s =
      .next (match readTraceWord word with
        | none => s.accepted.post ⟨.portTrace, tag, .traceInvalid, .none, false, .trace port.toNat s.pt.ports[port.toNat].trace⟩
        | some (node, far) => s.accepted.recordTrace tag port.toNat (if node = s.ownId then .looped else .heard node far)) := by
  rw [exec_taken (c := .portTrace ..) rfl takes nofun]
  refine congrArg _ ((onPort_fitted (s := s.accepted) station lt fitted).trans ?_)
  rw [port_eq lt]
  rfl

theorem exec_portTraceLoss (takes : s.takes) (station : s.sc.station ≠ .unconfigured) {port : Byte} (lt : port.toNat < 16)
    (fitted : port.toNat < s.portCount) (tag : Tag) :
    exec (.portTraceLoss tag port) s = .next (s.accepted.recordTrace tag port.toNat .dark) := by
  rw [exec_taken (c := .portTraceLoss ..) rfl takes nofun]
  exact congrArg _ (onPort_fitted (s := s.accepted) station lt fitted)

theorem recordTrace_eq (lt : p < 16) (tag : Tag) (trace : Trace) : s.recordTrace tag p trace =
    (s.changePort p { s.pt.ports[p] with trace := trace }).post ⟨.portTrace, tag, .ok, .none, false, .trace p trace⟩ := by
  rw [State.recordTrace, port_eq lt]
  rfl

end State

/-- Settles O23. -/
theorem portRequestsAreHeld : Obligations.PortRequestsAreHeld := by
  unfold Obligations.PortRequestsAreHeld
  have configured {s : State} (station : s.sc.station = .identified ∨ s.sc.station = .configured) :
      s.sc.station ≠ .unconfigured ∧ s.sc.station.joined = false := by
    rcases station with is | is <;> rw [is] <;> exact ⟨nofun, rfl⟩
  have written {s : State} (done : Completion) {p : Nat} (lt : p < 16) (r : PortRecord) (unjoined : s.sc.station.joined = false) :
      (s.accepted.changePort p r).post done = State.answered done { s with pt.ports := s.pt.ports.set p r } := by
    rw [changePort_unjoined (s := s.accepted) lt r unjoined, State.answered_eq]
    rfl
  refine ⟨fun c kind tag port s takes station unfitted request => ?_,
    fun tag port enabled cost noise dispersion used s takes station lt fitted => ?_,
    fun tag port word node far trace s takes station lt fitted read is => ?_,
    fun tag port word s takes station lt fitted invalid => ?_, fun tag port s takes station lt fitted => ?_⟩
  · have refused {k : RequestKind} {act : State → State} : s.accepted.onPort k tag port.toNat act =
        s.answered ⟨k, tag, .refused, .range, false, .none⟩ := by
      rw [onPort_refused (s := s.accepted) station unfitted, State.post_accepted]
    rcases request with ⟨rfl, enabled, cost, noise, dispersion, used, rfl⟩ | ⟨rfl, ⟨word, rfl⟩ | rfl⟩
    · exact (exec_taken (c := .portSet ..) rfl takes nofun).trans (congrArg _ refused)
    · exact (exec_taken (c := .portTrace ..) rfl takes nofun).trans (congrArg _ refused)
    · exact (exec_taken (c := .portTraceLoss ..) rfl takes nofun).trans (congrArg _ refused)
  · obtain ⟨known, unjoined⟩ := configured station
    rw [exec_portSet takes known lt fitted, written _ lt _ unjoined]
    rfl
  · obtain ⟨known, unjoined⟩ := configured station
    rw [exec_portTrace takes known lt fitted, read, is]
    dsimp only
    rw [recordTrace_eq lt]
    exact congrArg _ (written _ lt _ unjoined)
  · rw [exec_portTrace takes station lt fitted, invalid, State.answered_eq]
  · obtain ⟨known, unjoined⟩ := configured station
    rw [exec_portTraceLoss takes known lt fitted, recordTrace_eq lt]
    exact congrArg _ (written _ lt _ unjoined)

end Sys2Proof.Machine

namespace Sys2Proof.Machine

/-! The derived adjacency of a port (R52, R53). -/

namespace State

variable {s : State} {p : Nat}

theorem lookup_node (form : s.ViewForm) (node : Nat) :
    (∃ r, Table.lookup NodeRecord.id node s.tv.nodes = some r) ↔ ∃ r ∈ s.tv.nodes, r.id = node :=
  exists_congr fun _ => Table.lookup_eq_some form.nodesSorted

theorem lookup_link (form : s.ViewForm) {k : LinkKey} (port : k.port ≤ 15) {l : LinkRecord} :
    Table.lookup LinkRecord.code k.code s.tv.links = some l ↔ l ∈ s.tv.links ∧ l.key = k := by
  rw [Table.lookup_eq_some form.linksSorted]
  refine and_congr_right fun stored => ⟨fun same => ?_, fun same => congrArg LinkKey.code same⟩
  exact LinkKey.code_inj ((form.tables.fromPorts l stored).trans_lt (by decide)) (port.trans_lt (by decide)) same

/-- The adjacency of a HEARD port follows from the far node's record and link (R52). -/
theorem adjacency_heard (form : s.ViewForm) {node far : Nat} (trace : (s.port p).trace = .heard node far) (port : far ≤ 15) :
    (s.adjacency p = some .verified ↔ (∃ r ∈ s.tv.nodes, r.id = node) ∧
      ∃ l ∈ s.tv.links, l.key = ⟨node, far⟩ ∧ l.toNode = s.ownId ∧ l.toPort = p) ∧
    (s.adjacency p = some .mismatch ↔ (∃ r ∈ s.tv.nodes, r.id = node) ∧
      ∃ l ∈ s.tv.links, l.key = ⟨node, far⟩ ∧ ¬(l.toNode = s.ownId ∧ l.toPort = p)) ∧
    (s.adjacency p = some .unconfirmed ↔ ¬((∃ r ∈ s.tv.nodes, r.id = node) ∧ ∃ l ∈ s.tv.links, l.key = ⟨node, far⟩)) ∧
    s.adjacency p ≠ none := by
  have link (P : LinkRecord → Prop) : (∃ l ∈ s.tv.links, l.key = ⟨node, far⟩ ∧ P l) ↔
      ∃ l, Table.lookup LinkRecord.code (LinkKey.code ⟨node, far⟩) s.tv.links = some l ∧ P l :=
    exists_congr fun l => by rw [lookup_link form (k := ⟨node, far⟩) port, and_assoc]
  have present : (∃ l ∈ s.tv.links, l.key = ⟨node, far⟩) ↔
      ∃ l, Table.lookup LinkRecord.code (LinkKey.code ⟨node, far⟩) s.tv.links = some l :=
    exists_congr fun l => (lookup_link form (k := ⟨node, far⟩) port).symm
  rw [link, link, present, ← lookup_node form]
  unfold State.adjacency
  rw [trace]
  dsimp only
  cases Table.lookup NodeRecord.id node s.tv.nodes with
  | none => simp
  | some r =>
    cases Table.lookup LinkRecord.code (LinkKey.code ⟨node, far⟩) s.tv.links with
    | none => simp
    | some l =>
      by_cases here : l.toNode = s.ownId ∧ l.toPort = p
      · simp [here]
      · simpa [here] using not_and.1 here

/-- Two adjacencies of which one tells the other's three cases are the same. -/
theorem adjacency_unique {a b : Option Adjacency} {v m u : Prop} (ha : (a = some .verified ↔ v) ∧ (a = some .mismatch ↔ m) ∧
    (a = some .unconfirmed ↔ u) ∧ a ≠ none) (hb : (b = some .verified ↔ v) ∧ (b = some .mismatch ↔ m) ∧
    (b = some .unconfirmed ↔ u) ∧ b ≠ none) : a = b := by
  obtain ⟨av, am, au, some⟩ := ha
  obtain ⟨bv, bm, bu, -⟩ := hb
  cases a with
  | none => exact absurd rfl some
  | some x => cases x with
    | verified => exact (bv.2 (av.1 rfl)).symm
    | mismatch => exact (bm.2 (am.1 rfl)).symm
    | unconfirmed => exact (bu.2 (au.1 rfl)).symm

theorem adjacency_unheard (trace : (s.port p).trace = .dark ∨ (s.port p).trace = .looped) :
    s.adjacency p = none ∧ s.ownLinkVerified p = none := by
  have unlinked : s.ownLink p = none := by
    unfold State.ownLink
    rcases trace with is | is <;> rw [is, ite_self]
  unfold State.adjacency State.ownLinkVerified
  rw [unlinked]
  rcases trace with is | is <;> rw [is] <;> exact ⟨rfl, rfl⟩

/-- The verification of the own link of a HEARD port (R53). -/
theorem ownLinkVerified_heard (form : s.ViewForm) {node far : Nat} (trace : (s.port p).trace = .heard node far)
    (fitted : p < s.portCount) (port : p ≤ 15) :
    (s.ownLinkVerified p = none ↔ (s.port p).enabled = false) ∧
    (s.ownLinkVerified p = some true ↔ (s.port p).enabled = true ∧
      ∃ l ∈ s.tv.links, l.key = ⟨s.ownId, p⟩ ∧ l.verified = true) := by
  have verified : (Table.lookup LinkRecord.code (LinkKey.code ⟨s.ownId, p⟩) s.tv.links).any LinkRecord.verified = true ↔
      ∃ l ∈ s.tv.links, l.key = ⟨s.ownId, p⟩ ∧ l.verified = true := by
    rw [Option.any_eq_true]
    exact exists_congr fun l => by rw [lookup_link form (k := ⟨s.ownId, p⟩) port, and_assoc]
  unfold State.ownLinkVerified State.ownLink
  rw [trace]
  cases enabled : (s.port p).enabled with
  | true => simp [fitted, verified]
  | false => simp

theorem verification_unique {a b : Option Bool} {n t : Prop} (ha : (a = none ↔ n) ∧ (a = some true ↔ t))
    (hb : (b = none ↔ n) ∧ (b = some true ↔ t)) : a = b := by
  obtain ⟨an, at_⟩ := ha
  obtain ⟨bn, bt⟩ := hb
  cases a with
  | none => exact (bn.2 (an.1 rfl)).symm
  | some x => cases x with
    | true => exact (bt.2 (at_.1 rfl)).symm
    | false => cases b with
      | none => cases an.2 (bn.1 rfl)
      | some y => cases y with
        | true => cases at_.2 (bt.1 rfl)
        | false => rfl

end State

open State

/-- Settles O26: each of the adjacencies and the own link's verification is fixed by what the tables hold. -/
theorem portQueryDerivesAdjacency : Obligations.PortQueryDerivesAdjacency := by
  unfold Obligations.PortQueryDerivesAdjacency
  intro tag port adjacency ownLink s takes joined form ranges
  refine ⟨fun unfitted => ?_, fun lt fitted unheard heard => ?_⟩
  · rw [exec_query (c := .queryPort tag port) rfl nofun takes joined]
    exact congrArg (fun c => Host.Outcome.next (s.answered c)) (if_pos unfitted)
  · have same : adjacency = s.adjacency port.toNat ∧ ownLink = s.ownLinkVerified port.toNat := by
      rw [← port_eq lt] at unheard heard
      cases trace : (s.port port.toNat).trace with
      | dark =>
        obtain ⟨rfl, rfl⟩ := unheard (.inl trace)
        obtain ⟨none, none'⟩ := adjacency_unheard (.inl trace)
        exact ⟨none.symm, none'.symm⟩
      | looped =>
        obtain ⟨rfl, rfl⟩ := unheard (.inr trace)
        obtain ⟨none, none'⟩ := adjacency_unheard (.inr trace)
        exact ⟨none.symm, none'.symm⟩
      | heard node far =>
        obtain ⟨verified, mismatch, unconfirmed, some, unlinked, linked⟩ := heard node far trace
        have range := (ranges.port lt).2.2.2.2.2
        rw [trace, Trace.inRange, Bool.and_eq_true, decide_eq_true_eq] at range
        exact ⟨adjacency_unique ⟨verified, mismatch, unconfirmed, some⟩ (adjacency_heard form trace range.2),
          verification_unique ⟨unlinked, linked⟩ (ownLinkVerified_heard form trace fitted (Nat.le_of_lt_succ lt))⟩
    rw [exec_query (c := .queryPort tag port) rfl nofun takes joined, same.1, same.2, ← port_eq lt]
    exact congrArg (fun c => Host.Outcome.next (s.answered c))
      (if_neg (show ¬(15 < port.toNat ∨ s.portCount ≤ port.toNat) by omega))

end Sys2Proof.Machine

namespace Sys2Proof.Machine

/-! How kinds meet in a place (R5, R6, R58), and the end of isolation (R19, R62). -/

/-- The rows in which the entry stays as it is. -/
theorem staysDue_iff (current new : FrameKind) : staysDue current new = true ↔
    (((current = .commit ∨ current = .release) ∧ new = .object) ∨ (current = .release ∧ new = .commit) ∨
      (current = .withdraw ∧ new = .advert)) := by
  cases current <;> cases new <;> decide

theorem staysDue_self (k : FrameKind) : staysDue k k = false := by cases k <;> rfl

/-- The follow-on after a kind that the recorded one neither equals nor outlasts. -/
theorem mergeFollowOn_other {k k' : FrameKind} {c c' : Fin 3} (gives : staysDue k' k = false) (other : k' ≠ k) :
    mergeFollowOn (some (k', c')) k c = (k, c) := by
  rw [mergeFollowOn, gives, if_neg Bool.false_ne_true, if_neg other]

theorem mergeFollowOn_stays {k k' : FrameKind} {c c' : Fin 3} (stays : staysDue k' k = true) :
    mergeFollowOn (some (k', c')) k c = (k', c') := by
  rw [mergeFollowOn, if_pos stays]

theorem mergeFollowOn_same (k : FrameKind) (c c' : Fin 3) : mergeFollowOn (some (k, c')) k c = (k, min c' c) := by
  rw [mergeFollowOn, staysDue_self, if_neg Bool.false_ne_true, if_pos rfl]

namespace State

variable {s : State} {p : Fin 10} {k : FrameKind} {c : Fin 3} {e : Entry}

theorem dueEntry_of_entry (running : s.sc.station ≠ .muted) (entry : s.entry p = some e) :
    s.dueEntry p k c = some (if s.onLine p then e.follow k c else e.become k c) := by
  rw [State.dueEntry, if_neg running, entry]

/-- A kind that the entry gives way to, off the line (R5). -/
theorem become_eq (gives : staysDue e.kind k = false) : e.become k c =
    if e.kind = k then { e with cls := min e.cls c } else { e with kind := k, cls := c, attempts := 0, backoffEnd := none } := by
  rw [Entry.become, gives, if_neg Bool.false_ne_true]

/-- A kind that the one on the line gives way to (R6). -/
theorem follow_eq (gives : staysDue e.kind k = false) : e.follow k c =
    { e with followOn := some (mergeFollowOn e.followOn k c), withdrawn := false } := by
  rw [Entry.follow, gives, if_neg Bool.false_ne_true]

theorem withdrawEntry_of_none (none : s.entry p = none) : s.withdrawEntry p = s := by
  rw [State.withdrawEntry, none]

/-- An ADVERT made due in place 8, which holds ADVERTs alone (R58). -/
theorem dueEntry_advert (running : s.sc.station ≠ .muted) (only : s.advertsOnly) (c : Fin 3) :
    s.dueEntry advertPlace .advert c = s.advertMade c := by
  unfold State.advertMade
  cases entry : s.entry 8 with
  | none =>
    rw [State.dueEntry, if_neg running, show s.entry advertPlace = none from entry]
    rfl
  | some e =>
    obtain ⟨kind, followOn⟩ := only e entry
    have gives : staysDue e.kind .advert = false := by rw [kind]; rfl
    rw [dueEntry_of_entry running (show s.entry advertPlace = some e from entry)]
    show some (if s.onLine 8 then _ else _) = if s.onLine 8 then _ else _
    split
    · have merged : mergeFollowOn e.followOn .advert c = (.advert, (e.followOn.map (fun f => min f.2 c)).getD c) := by
        cases follow : e.followOn with
        | none => rfl
        | some f =>
          obtain ⟨kind', cls⟩ := f
          cases followOn _ follow
          rfl
      rw [follow_eq gives, merged]
    · rw [become_eq gives, if_pos kind]

/-- What the report of a content change makes of the state (R60, R61, R62). -/
theorem contentReport_eq (s : State) : s.contentReport = if s.sc.station = .muted then s else
    { s with
      ads := { s.ads with mark := .waiting, entryPresent := s.ads.entryPresent || (s.advertising && !s.ads.postDropWait) }
      lac.due := s.lac.due.set advertPlace
        (if s.advertising && !s.ads.postDropWait then s.dueEntry advertPlace .advert 1 else s.entry advertPlace) } := by
  have kept : s.lac.due.set advertPlace (s.entry advertPlace) = s.lac.due := Vector.set_getElem_self ..
  unfold State.contentReport
  split
  · rfl
  · dsimp only
    cases allowed : s.advertising && !s.ads.postDropWait with
    | true =>
      rw [if_pos (show (State.advertising { s with ads.mark := .waiting } && !s.ads.postDropWait) = true from allowed),
        if_pos rfl, Bool.or_true, State.makeAdvertDue, State.makeDue_eq]
      rfl
    | false =>
      rw [if_neg (show ¬(State.advertising { s with ads.mark := .waiting } && !s.ads.postDropWait) = true by
        rw [show (State.advertising { s with ads.mark := .waiting } && !s.ads.postDropWait) = false from allowed]; nofun),
        if_neg Bool.false_ne_true, Bool.or_false, kept]

/-- What the report makes of a state outside MUTED, as `made` is the entry that stands in place 8 then. -/
theorem contentReport_of (running : s.sc.station ≠ .muted) {allowed : Bool} (is : (s.advertising && !s.ads.postDropWait) = allowed)
    {made : Option Entry}
    (entry : made = if allowed then s.dueEntry advertPlace .advert 1 else s.entry advertPlace) : s.contentReport = { s with
      ads := { s.ads with mark := .waiting, entryPresent := s.ads.entryPresent || allowed }
      lac.due := s.lac.due.set advertPlace made } := by
  rw [contentReport_eq, if_neg running, is, ← entry]

theorem advertising_iff : s.advertising = true ↔ s.sc.station = .announcing ∨ s.sc.station = .operating := by
  rw [State.advertising, Bool.or_eq_true, beq_iff_eq, beq_iff_eq]

/-- A good frame's end of isolation, in its order (R19). -/
theorem heard_of_isolated (isolated : s.lac.isolated = true) : s.heard = State.contentReport { s with
    events := s.events + 1, lac.assembler := .waiting, lac.isolated := false, clp.marks.isolated := true } := by
  have marked : (s.clp.marks.isolated || (s.lac.isolated != false)) = true := by rw [isolated]; exact Bool.or_true _
  unfold State.heard State.endIsolation
  rw [if_pos (show ({ s with events := s.events + 1, lac.assembler := .waiting } : State).lac.isolated = true from isolated),
    State.setIsolated_eq, ← marked]

end State

open State

/-- Settles O37: the table of section 1.3 for an entry off the line and for a follow-on. -/
theorem dueKindsMeetByTheTable : Obligations.DueKindsMeetByTheTable := by
  unfold Obligations.DueKindsMeetByTheTable
  intro p k c s
  refine ⟨fun muted => if_pos muted, fun running none => ?_, ?_, withdrawEntry_of_none⟩
  · rw [State.makeDue_eq, State.dueEntry, if_neg running, none]
    rfl
  · rintro e running entry _ rfl
    rw [← staysDue_iff]
    refine ⟨fun stays => ?_, fun gives off => ?_, fun gives on f table => ?_, fun off => ?_, fun on => ?_⟩
    · have same : (if s.onLine p then e.follow k c else e.become k c) = e := by
        split
        · exact if_pos stays
        · exact if_pos stays
      rw [State.makeDue_eq, dueEntry_of_entry running entry, same, ← entry]
      exact s.setEntry_self p
    · have gives := Bool.eq_false_of_not_eq_true gives
      rw [State.makeDue_eq, dueEntry_of_entry running entry, off, if_neg Bool.false_ne_true, become_eq gives]
      refine ⟨fun same => ?_, fun other => ?_⟩
      · rw [if_pos same.symm]
        rfl
      · rw [if_neg (Ne.symm other)]
        rfl
    · have gives := Bool.eq_false_of_not_eq_true gives
      have merged : mergeFollowOn e.followOn k c = f := by
        rcases table with ⟨none, rfl⟩ | ⟨c', some, rfl⟩ | ⟨c', some, rfl | rfl, rfl⟩ | ⟨c', some, rfl, rfl⟩ | ⟨c', some, rfl, rfl⟩ |
          ⟨c', some, rfl, rfl⟩ | ⟨c', some, rfl | rfl, rfl⟩ | ⟨c', some, rfl, rfl⟩ | ⟨k', c', some, rfl, other, rfl⟩
        · rw [none]
          rfl
        · rw [some, mergeFollowOn_same]
        · rw [some, mergeFollowOn_stays rfl]
        · rw [some, mergeFollowOn_stays rfl]
        · rw [some, mergeFollowOn_stays rfl]
        · rw [some, mergeFollowOn_stays rfl]
        · rw [some]
          rfl
        · rw [some]
          rfl
        · rw [some]
          rfl
        · rw [some]
          rfl
        · rw [some, mergeFollowOn_other (by cases k' <;> rfl) other]
      rw [State.makeDue_eq, dueEntry_of_entry running entry, if_pos on, follow_eq gives, merged]
      rfl
    · rw [State.withdrawEntry_eq, off, if_neg Bool.false_ne_true]
      rfl
    · rw [State.withdrawEntry_eq, if_pos on, entry]
      rfl

/-- Settles O28. -/
theorem goodFrameEndsIsolation : Obligations.GoodFrameEndsIsolation := by
  unfold Obligations.GoodFrameEndsIsolation
  refine fun s => ⟨fun heard => ?_, fun isolated made is only => ?_⟩
  · unfold State.heard State.endIsolation
    exact if_neg (show ¬s.lac.isolated = true by rw [heard]; nofun)
  · have kept : s.lac.due.set 8 (s.entry 8) = s.lac.due := Vector.set_getElem_self ..
    have allows : (s.sc.station = .announcing ∨ s.sc.station = .operating) ∧ s.ads.postDropWait = false ↔
        (s.advertising && !s.ads.postDropWait) = true := by
      rw [Bool.and_eq_true, advertising_iff, Bool.not_eq_true']
    rw [heard_of_isolated isolated]
    by_cases muted : s.sc.station = .muted
    · have silent : s.advertising = false := by rw [State.advertising, muted]; rfl
      rw [if_neg (by rw [allows, silent]; nofun)] at is
      have quiet : (s.ads.entryPresent || ((s.sc.station == .announcing || s.sc.station == .operating) &&
          !s.ads.postDropWait)) = s.ads.entryPresent := by
        rw [show (s.sc.station == .announcing || s.sc.station == .operating) = false from silent, Bool.false_and, Bool.or_false]
      rw [if_pos muted, quiet, is, kept]
      exact if_pos muted
    · rw [if_neg muted]
      refine contentReport_of (s := { s with events := s.events + 1, lac.assembler := .waiting, lac.isolated := false
                                             clp.marks.isolated := true }) muted rfl (is.trans ?_)
      split
      · rename_i allowed
        exact (if_pos (allows.1 allowed)).symm ▸ (dueEntry_advert (s := { s with
          events := s.events + 1, lac.assembler := .waiting, lac.isolated := false, clp.marks.isolated := true })
          muted (only allowed.1 allowed.2) 1).symm
      · rename_i no
        exact (if_neg fun allowed => no (allows.2 allowed)).symm

end Sys2Proof.Machine

namespace Sys2Proof.Machine

namespace State

variable {s t u : State}

/-! ### Peer records that go (R107, R110) -/

/-- What the peer records `gone` leave behind: each counts 1, and a freed place clears HOLDS_OVERFLOW (R88, R107). -/
def peersGone (gone : Hold → Bool) (s : State) : State :=
  { s with
    hu.holds := s.hu.holds.filter (fun h => !gone h)
    hu.overflow := s.hu.overflow && !s.hu.holds.any gone
    clp.marks.overflow := s.clp.marks.overflow || (s.hu.overflow && s.hu.holds.any gone)
    tv.counter := s.tv.counter + BitVec.ofNat 32 (s.hu.holds.countP gone) }

theorem peersGone_congr {f g : Hold → Bool} (same : ∀ h ∈ s.hu.holds, f h = g h) : s.peersGone f = s.peersGone g := by
  unfold State.peersGone
  rw [List.filter_congr fun h mem => congrArg Bool.not (same h mem),
    List.countP_congr fun h mem => by rw [same h mem],
    show s.hu.holds.any f = s.hu.holds.any g from Bool.eq_iff_iff.2 (by
      rw [List.any_eq_true, List.any_eq_true]
      exact exists_congr fun h => and_congr_right fun mem => by rw [same h mem])]

theorem peersGone_none {gone : Hold → Bool} (none : ∀ h ∈ s.hu.holds, gone h = false) : s.peersGone gone = s := by
  have any : s.hu.holds.any gone = false := List.any_eq_false.2 fun h mem => by rw [none h mem]; nofun
  have all : s.hu.holds.filter (fun h => !gone h) = s.hu.holds :=
    List.filter_eq_self.2 fun h mem => by rw [none h mem]; rfl
  have count : s.hu.holds.countP gone = 0 := List.countP_eq_zero.2 fun h mem => by rw [none h mem]; nofun
  unfold State.peersGone
  rw [any, all, count]
  simp

/-- Records that go one after another go together. -/
theorem peersGone_peersGone (f g : Hold → Bool) : (s.peersGone f).peersGone g = s.peersGone (fun h => f h || g h) := by
  have split : s.hu.holds.any (fun h => f h || g h) = (s.hu.holds.any f || (s.hu.holds.filter fun h => !f h).any g) := by
    rw [Bool.eq_iff_iff]
    simp only [Bool.or_eq_true, List.any_eq_true, List.mem_filter, Bool.not_eq_true']
    constructor
    · rintro ⟨h, mem, goes⟩
      cases is : f h with
      | true => exact .inl ⟨h, mem, is⟩
      | false => exact .inr ⟨h, ⟨mem, is⟩, goes.resolve_left (by rw [is]; nofun)⟩
    · rintro (⟨h, mem, goes⟩ | ⟨h, ⟨mem, -⟩, goes⟩)
      · exact ⟨h, mem, .inl goes⟩
      · exact ⟨h, mem, .inr goes⟩
  have count : s.hu.holds.countP (fun h => f h || g h) =
      s.hu.holds.countP f + (s.hu.holds.filter fun h => !f h).countP g := by
    induction s.hu.holds with
    | nil => rfl
    | cons h l ih =>
      rw [List.countP_cons, List.countP_cons, List.filter_cons, ih]
      cases f h <;> cases is : g h <;> simp [is] <;> omega
  unfold State.peersGone
  rw [split, count, BitVec.ofNat_add, ← BitVec.add_assoc, List.filter_filter]
  cases s.hu.overflow <;> cases s.hu.holds.any f <;> cases s.clp.marks.overflow <;>
    simp [Bool.and_comm]

/-- One peer record goes (R88, R107). -/
theorem removeHold_peersGone (sorted : Table.Sorted Hold.code s.hu.holds) {x : Hold} (stored : x ∈ s.hu.holds)
    (peer : x.own = false) : s.removeHold x.code = s.peersGone (fun h => h.code == x.code) := by
  have found : Table.lookup Hold.code x.code s.hu.holds = some x := (Table.lookup_eq_some sorted).2 ⟨stored, rfl⟩
  have any : s.hu.holds.any (fun h => h.code == x.code) = true := List.any_eq_true.2 ⟨x, stored, beq_self_eq_true _⟩
  have distinct : s.hu.holds.Nodup := List.Pairwise.imp (fun lt same => absurd (congrArg Hold.code same) (by omega)) sorted
  have one : s.hu.holds.countP (fun h => h.code == x.code) = 1 := by
    rw [List.countP_congr (q := (· == x)) fun h mem => by
      rw [beq_iff_eq, beq_iff_eq]
      exact ⟨fun same => sorted.inj mem stored same, congrArg Hold.code⟩]
    exact List.count_eq_one_of_mem distinct stored
  unfold State.removeHold State.peersGone
  rw [found, any, one]
  simp [peer, State.setOverflow_eq, State.count, Table.erase, bne]

/-- Peer records go one after another. -/
theorem removePeers_eq {l : List Hold} (distinct : (l.map Hold.code).Nodup) (sorted : Table.Sorted Hold.code s.hu.holds)
    (stored : ∀ x ∈ l, x ∈ s.hu.holds ∧ x.own = false) :
    l.foldl (fun s h => s.removeHold h.code) s = s.peersGone (fun h => l.any (fun x => h.code == x.code)) := by
  induction l generalizing s with
  | nil => exact (peersGone_none fun _ _ => rfl).symm
  | cons x l ih =>
    obtain ⟨fresh, distinct⟩ := List.nodup_cons.1 distinct
    obtain ⟨first, peer⟩ := stored x (.head _)
    have removed := removeHold_peersGone sorted first peer
    rw [List.foldl_cons, removed, ih distinct (Table.sorted_erase sorted x.code) fun y mem => ?_, peersGone_peersGone]
    · rfl
    · obtain ⟨stored, peer⟩ := stored y (.tail _ mem)
      refine ⟨List.mem_filter.2 ⟨stored, ?_⟩, peer⟩
      rw [Bool.not_eq_true', beq_eq_false_iff_ne]
      exact fun same => fresh (same ▸ List.mem_map_of_mem mem)

/-- The peer records of an origin go (R110). -/
theorem removePeerHolds_eq (sorted : Table.Sorted Hold.code s.hu.holds) (origin : Nat) :
    s.removePeerHolds origin = s.peersGone (fun h => !h.own && h.origin == origin) := by
  unfold State.removePeerHolds
  have codes : (s.hu.holds.map Hold.code).Nodup :=
    List.Pairwise.map _ (fun _ _ lt => Nat.ne_of_lt lt) sorted
  rw [removePeers_eq (codes.sublist (List.filter_sublist.map _)) sorted fun x mem => ?_]
  · refine peersGone_congr fun h mem => Bool.eq_iff_iff.2 ?_
    rw [List.any_eq_true]
    constructor
    · rintro ⟨x, goes, same⟩
      obtain ⟨stored, goes⟩ := List.mem_filter.1 goes
      rwa [sorted.inj mem stored (beq_iff_eq.1 same)]
    · exact fun goes => ⟨h, List.mem_filter.2 ⟨mem, goes⟩, beq_self_eq_true _⟩
  · obtain ⟨stored, goes⟩ := List.mem_filter.1 mem
    rw [Bool.and_eq_true, Bool.not_eq_true'] at goes
    exact ⟨stored, goes.1⟩

/-! ### An ADVERT from another origin (R25, R26, R29, R35) -/

theorem exec_advertReceived {origin : BitVec 16} {body : List Byte} (h : s.hears origin body) :
    exec (.advertReceived origin body) s = .next (s.heard.advertFrame origin.toNat body) :=
  congrArg _ (State.receiveFrame_heard h .advert)

/-- The end of isolation marks its change, and nothing else of the CLP. -/
theorem heard_clp (s : State) : s.heard.clp =
    { s.clp with marks.isolated := s.clp.marks.isolated || s.lac.isolated } := by
  have report (u : State) : u.contentReport.clp = u.clp := by
    rw [contentReport_eq]
    split
    · rfl
    · split <;> rfl
  cases isolated : s.lac.isolated with
  | false =>
    unfold State.heard State.endIsolation
    rw [if_neg (show ¬s.lac.isolated = true by rw [isolated]; nofun), Bool.or_false]
  | true =>
    rw [heard_of_isolated isolated, report, Bool.or_true]

theorem heard_viewMark (s : State) : s.heard.clp.marks.viewIncomplete = s.clp.marks.viewIncomplete := by
  rw [heard_clp]

theorem heard_overflowMark (s : State) : s.heard.clp.marks.overflow = s.clp.marks.overflow := by rw [heard_clp]

theorem advertFrame_unreadable {body : List Byte} (read : readAdvert body = none) (origin : Nat) :
    s.advertFrame origin body = s := by
  unfold State.advertFrame
  rw [read]

theorem advertFrame_known {body : List Byte} {a : Advert} (read : readAdvert body = some a) {origin : Nat} {r : NodeRecord}
    (found : Table.lookup NodeRecord.id origin s.tv.nodes = some r) :
    s.advertFrame origin body = s.advertKnown r origin a := by
  unfold State.advertFrame
  rw [read]
  dsimp only
  rw [found]

theorem advertFrame_unknown {body : List Byte} {a : Advert} (read : readAdvert body = some a) {origin : Nat}
    (unknown : s.knows origin = false) : s.advertFrame origin body = s.advertUnknown origin a := by
  have none : Table.lookup NodeRecord.id origin s.tv.nodes = none := Option.isSome_eq_false_iff.1 unknown |> Option.isNone_iff_eq_none.1
  unfold State.advertFrame
  rw [read]
  dsimp only
  rw [none]

theorem heard_knows (s : State) : s.heard.knows = s.knows := by
  funext n
  rw [State.knows, State.heard_tv, State.knows]

/-- The TV keeps one origin's record and its links no longer (R35). -/
theorem purge_of_sorted (sorted : Table.Sorted Hold.code s.hu.holds) (origin : Nat) (gone : Hold → Bool)
    (is : gone = fun h => !h.own && h.origin == origin) : s.purge origin = { s with
      tv := {
        nodes := s.tv.nodes.filter (fun x => x.id != origin)
        links := reverifiedLinks origin (s.tv.nodes.filter (fun x => x.id != origin)) (dropLinks origin s.tv.links)
        viewIncomplete := false
        counter := s.tv.counter + BitVec.ofNat 32 (1 + s.hu.holds.countP gone) }
      hu := { s.hu with
        holds := s.hu.holds.filter (fun h => !gone h)
        overflow := s.hu.overflow && !s.hu.holds.any gone }
      clp := { s.clp with marks := { s.clp.marks with
        viewIncomplete := s.clp.marks.viewIncomplete || s.tv.viewIncomplete
        overflow := s.clp.marks.overflow || (s.hu.overflow && s.hu.holds.any gone) } } } := by
  have counted : s.tv.counter + BitVec.ofNat 32 (1 + s.hu.holds.countP gone) =
      s.tv.counter + BitVec.ofNat 32 (s.hu.holds.countP gone) + 1#32 := by
    rw [Nat.add_comm, BitVec.ofNat_add, ← BitVec.add_assoc]
  rw [purge_eq, removePeerHolds_eq (s := s.unlisted origin) sorted, ← is, State.setViewIncomplete_eq, counted]
  unfold State.count State.peersGone State.unlisted
  rw [Bool.bne_false]
  rfl

end State

/-- Settles O31, by the branches of R26, R28 and R29. -/
theorem advertThatStoresNothing : Obligations.AdvertThatStoresNothing := by
  unfold Obligations.AdvertThatStoresNothing
  intro origin body s hears
  rw [State.exec_advertReceived hears]
  have tables := s.heard_tv
  have known {r : NodeRecord} (found : Table.lookup NodeRecord.id origin.toNat s.tv.nodes = some r) :
      Table.lookup NodeRecord.id origin.toNat s.heard.tv.nodes = some r := by rw [tables]; exact found
  have unknown (new : s.knows origin.toNat = false) : s.heard.knows origin.toNat = false := by rw [State.heard_knows]; exact new
  refine ⟨fun read => ?_, fun a read new withdraw => ?_, fun a read new stays full => ?_, fun a r read found behind old => ?_,
    fun a r read found stays old equal => ?_⟩
  · rw [State.advertFrame_unreadable read]
  · rw [State.advertFrame_unknown read (unknown new), State.advertUnknown, if_pos withdraw]
  · rw [State.advertFrame_unknown read (unknown new), State.advertUnknown, if_neg (by rw [stays]; nofun),
      if_neg (by rw [tables]; exact Nat.not_lt.2 full), State.setViewIncomplete_eq,
      show s.heard.tv.viewIncomplete = s.tv.viewIncomplete by rw [tables], Bool.bne_true, State.heard_viewMark]
  · rw [State.advertFrame_known read (known found)]
    have ahead : ¬sequenceAhead a.sequence r.sequence ≤ 32767 := by unfold sequenceAhead; omega
    have other : ¬sequenceAhead a.sequence r.sequence = 0 := by unfold sequenceAhead; omega
    unfold State.advertKnown
    dsimp only
    rw [if_neg ahead, if_neg ahead, if_neg other]
    rcases old with withdraw | old
    · rw [if_pos withdraw]
    · rw [if_neg (show ¬a.fresh = true by rw [old]; nofun), ite_self]
  · have zero : sequenceAhead a.sequence r.sequence = 0 := by unfold sequenceAhead; rw [equal, BitVec.sub_self]; rfl
    rw [State.advertFrame_known read (known found)]
    unfold State.advertKnown
    dsimp only
    rw [if_neg (by rw [stays]; nofun), if_neg (by rw [old]; nofun), if_pos zero, State.rejuvenate, tables]

/-- Without a record a node has no verified link to it (R33). -/
theorem reverifiedLinks_purged {origin : Nat} {nodes : List NodeRecord} {links : List LinkRecord}
    (absent : hasNode nodes origin = false) :
    reverifiedLinks origin nodes (dropLinks origin links) =
      (dropLinks origin links).map (fun l => if l.toNode = origin then { l with verified := false } else l) := by
  refine List.map_congr_left fun l mem => ?_
  have away : l.key.node ≠ origin := (mem_dropLinks.1 mem).2
  by_cases toward : l.toNode = origin
  · have none : (Table.lookup NodeRecord.id l.toNode nodes).isSome = false := by rw [toward]; exact absent
    rw [if_pos (.inr toward), if_pos toward]
    unfold reverseStored
    rw [none, Bool.and_false, Bool.false_and]
  · rw [if_neg (by rintro (h | h); exacts [away h, toward h]), if_neg toward]

/-- Settles O32: the purge of R35. -/
theorem withdrawPurgesTheOrigin : Obligations.WithdrawPurgesTheOrigin := by
  unfold Obligations.WithdrawPurgesTheOrigin
  rintro origin body a r goes u s hears - ok read withdraw found newer rfl rfl
  have absent : hasNode (s.tv.nodes.filter fun x => x.id != origin.toNat) origin.toNat = false := by
    rw [← Bool.not_eq_true, hasNode_iff]
    rintro ⟨x, mem, same⟩
    exact bne_iff_ne.1 (List.mem_filter.1 mem).2 same
  rw [State.exec_advertReceived hears, State.advertFrame_known read (by rw [State.heard_tv]; exact found)]
  unfold State.advertKnown
  dsimp only
  rw [if_pos withdraw, if_pos (show sequenceAhead _ _ ≤ 32767 from newer),
    State.purge_of_sorted (by rw [State.heard_hu]; exact ok.sorted) origin.toNat _ rfl, State.heard_tv, State.heard_hu,
    reverifiedLinks_purged absent, State.heard_viewMark, State.heard_overflowMark]

end Sys2Proof.Machine

namespace Sys2Proof.Machine

/-! What holds that go without a frame leave behind (R103, R107). -/

theorem countP_or {α : Type} (f g : α → Bool) (l : List α) :
    l.countP (fun x => f x || g x) = l.countP f + (l.filter fun x => !f x).countP g := by
  induction l with
  | nil => rfl
  | cons x l ih =>
    rw [List.countP_cons, List.countP_cons, List.filter_cons, ih]
    cases f x <;> cases is : g x <;> simp [is] <;> omega

/-- Whether records of a kind are among those that go, first by `f` and then by `g`. -/
theorem any_or {α : Type} (f g q : α → Bool) (l : List α) :
    l.any (fun x => (f x || g x) && q x) =
      (l.any (fun x => f x && q x) || (l.filter fun x => !f x).any (fun x => g x && q x)) := by
  induction l with
  | nil => rfl
  | cons x l ih =>
    rw [List.any_cons, List.any_cons, List.filter_cons, ih]
    cases is : f x with
    | true => simp [Bool.or_assoc]
    | false => simp [Bool.or_left_comm]

theorem holdPlace_inj {i j : Fin 8} (same : holdPlace i = holdPlace j) : i = j :=
  Fin.ext (congrArg (fun p : Fin 10 => p.val) same)

theorem holdPlace_ne_advert (i : Fin 8) : holdPlace i ≠ 8 := Fin.ne_of_val_ne (show i.val ≠ 8 by omega)

theorem holdPlace_ne_solicit (i : Fin 8) : holdPlace i ≠ 9 := Fin.ne_of_val_ne (show i.val ≠ 9 by omega)

namespace State

variable {s t u : State} {f g : Hold → Bool}

theorem withdrawEntry_entry (s : State) (p : Fin 10) : (s.withdrawEntry p).entry p =
    if s.onLine p then (s.entry p).map (fun e => { e with withdrawn := true, followOn := none }) else none := by
  rw [State.withdrawEntry_eq, State.entry_setEntry_self]

theorem ownGoes_congr (same : ∀ h ∈ s.hu.holds, f h = g h) : s.ownGoes f = s.ownGoes g := by
  funext n
  refine Bool.eq_iff_iff.2 ?_
  unfold State.ownGoes
  rw [List.any_eq_true, List.any_eq_true]
  exact exists_congr fun h => and_congr_right fun mem => by rw [same h mem]

theorem peerGoes_congr (same : ∀ h ∈ s.hu.holds, f h = g h) : s.peerGoes f = s.peerGoes g := by
  refine Bool.eq_iff_iff.2 ?_
  unfold State.peerGoes
  rw [List.any_eq_true, List.any_eq_true]
  exact exists_congr fun h => and_congr_right fun mem => by rw [same h mem]

theorem ownGoes_or (holds : t.hu.holds = s.hu.holds.filter (fun h => !f h)) (n : BitVec 8) :
    s.ownGoes (fun h => f h || g h) n = (s.ownGoes f n || t.ownGoes g n) := by
  have any := any_or f g (fun h => h.own && h.number == n) s.hu.holds
  simp only [← Bool.and_assoc] at any
  unfold State.ownGoes
  rw [holds]
  exact any

theorem peerGoes_or (holds : t.hu.holds = s.hu.holds.filter (fun h => !f h)) :
    s.peerGoes (fun h => f h || g h) = (s.peerGoes f || t.peerGoes g) := by
  unfold State.peerGoes
  rw [holds]
  exact any_or f g (fun h => !h.own) s.hu.holds

theorem Retired.congr (h : s.Retired t f) (same : ∀ x ∈ s.hu.holds, f x = g x) : s.Retired t g := by
  obtain ⟨holds, slots, places, overflow, marks, kept⟩ := h
  have own := ownGoes_congr same
  have peer := peerGoes_congr same
  refine ⟨?_, ?_, ?_, ?_, ?_, kept⟩
  · rw [holds]
    exact List.filter_congr fun x mem => congrArg Bool.not (same x mem)
  · rwa [← own]
  · rwa [← own]
  · rwa [← peer]
  · rwa [← peer]

/-- What is retired rests on the HU, the LAC's places and the overflow mark. -/
theorem Retired.to_eq (h : s.Retired t f) (hu : u.hu = t.hu) (entries : ∀ i, u.entry (holdPlace i) = t.entry (holdPlace i))
    (mark : u.clp.marks.overflow = t.clp.marks.overflow) : s.Retired u f := by
  obtain ⟨holds, slots, places, overflow, marks, kept⟩ := h
  have slot : u.slot = t.slot := slot_congr (congrArg Hu.slots hu)
  exact ⟨by rw [hu]; exact holds, fun i => by rw [slot]; exact slots i, fun i => (entries i).trans (places i),
    by rw [hu]; exact overflow, mark.trans marks, by rw [hu]; exact kept⟩

theorem Retired.from_eq (h : t.Retired u f) (hu : t.hu = s.hu) (entries : ∀ i, t.entry (holdPlace i) = s.entry (holdPlace i))
    (line : t.lac.attempt = s.lac.attempt) (mark : t.clp.marks.overflow = s.clp.marks.overflow) : s.Retired u f := by
  obtain ⟨holds, slots, places, overflow, marks, kept⟩ := h
  have slot : t.slot = s.slot := slot_congr (congrArg Hu.slots hu)
  have own : t.ownGoes f = s.ownGoes f := by unfold State.ownGoes; rw [hu]
  have peer : t.peerGoes f = s.peerGoes f := by unfold State.peerGoes; rw [hu]
  have onLine (p : Fin 10) : t.onLine p = s.onLine p := by unfold State.onLine; rw [line]
  rw [hu] at holds overflow kept
  rw [peer] at overflow marks
  rw [hu] at marks
  refine ⟨holds, fun i => ?_, fun i => ?_, overflow, mark ▸ marks, kept⟩
  · rw [slots, slot, own]
  · rw [places, slot, own, withdrawEntry_entry, withdrawEntry_entry, entries, onLine]

theorem Retired.trans (first : s.Retired t f) (line : t.lac.attempt = s.lac.attempt) (second : t.Retired u g) :
    s.Retired u (fun h => f h || g h) := by
  obtain ⟨holds, slots, places, overflow, marks, kept⟩ := first
  obtain ⟨holds', slots', places', overflow', marks', kept'⟩ := second
  have own := ownGoes_or (g := g) holds
  have peer := peerGoes_or (g := g) holds
  have onLine (p : Fin 10) : t.onLine p = s.onLine p := by unfold State.onLine; rw [line]
  refine ⟨?_, fun i => ?_, fun i => ?_, ?_, ?_, ?_⟩
  · rw [holds', holds, List.filter_filter]
    refine List.filter_congr fun x _ => ?_
    rw [Bool.not_or, Bool.and_comm]
  · rw [slots', slots]
    cases s.slot i with
    | live sub n tag =>
      dsimp only
      rw [own]
      cases s.ownGoes f n with
      | true => rfl
      | false => rfl
    | _ => rfl
  · have slot' := slots i
    have place := places i
    rw [places', withdrawEntry_entry, withdrawEntry_entry, onLine]
    rw [withdrawEntry_entry] at place
    cases is : s.slot i with
    | live sub n tag =>
      rw [is] at slot' place
      cases goes : s.ownGoes f n with
      | true =>
        simp only [goes, if_true] at slot'
        simp only [Slot.isLive, Slot.number, Option.any_some, goes, Bool.true_and] at place
        simp only [slot', Slot.isLive, Slot.number, Option.any_some, own, goes, Bool.true_or, Bool.true_and, Bool.false_and,
          Bool.false_eq_true, if_false, place]
      | false =>
        simp only [goes, Bool.false_eq_true, if_false] at slot'
        simp only [Slot.isLive, Slot.number, Option.any_some, goes, Bool.true_and, Bool.false_and, Bool.false_eq_true,
          if_false] at place
        simp only [slot', Slot.isLive, Slot.number, Option.any_some, own, goes, Bool.false_or, Bool.true_and, place]
    | _ =>
      simp only [is] at slot'
      simp only [is, Slot.isLive, Bool.false_and, Bool.false_eq_true, if_false] at place
      simp only [slot', Slot.isLive, Bool.false_and, Bool.false_eq_true, if_false, place]
  · rw [overflow', overflow, peer, Bool.not_or, Bool.and_assoc]
  · rw [marks', marks, overflow, peer]
    cases s.hu.overflow <;> cases s.peerGoes f <;> cases s.clp.marks.overflow <;> rfl
  · rw [kept', kept]

/-- `t` is what the holds `gone` of `s` leave behind, and each counts 1 (R37, R88, R103, R107). -/
structure Sheds (s t : State) (gone : Hold → Bool) : Prop where
  retired : s.Retired t gone
  counter : t.tv.counter = s.tv.counter + BitVec.ofNat 32 (s.hu.holds.countP gone)
  places : t.entry 8 = s.entry 8 ∧ t.entry 9 = s.entry 9
  stands : t = { s with tv.counter := t.tv.counter, hu := t.hu, lac.due := t.lac.due,
                        clp.marks.overflow := t.clp.marks.overflow }

theorem Sheds.attempt (h : s.Sheds t f) : t.lac.attempt = s.lac.attempt := by rw [h.stands]

theorem Sheds.links (h : s.Sheds t f) : t.tv.links = s.tv.links := by rw [h.stands]

theorem Sheds.congr (h : s.Sheds t f) (same : ∀ x ∈ s.hu.holds, f x = g x) : s.Sheds t g := by
  refine ⟨h.retired.congr same, ?_, h.places, h.stands⟩
  rw [h.counter, List.countP_congr fun x mem => by rw [same x mem]]

theorem Sheds.trans (first : s.Sheds t f) (second : t.Sheds u g) : s.Sheds u (fun h => f h || g h) := by
  refine ⟨first.retired.trans first.attempt second.retired, ?_, ⟨second.places.1.trans first.places.1,
    second.places.2.trans first.places.2⟩, ?_⟩
  · rw [second.counter, first.counter, first.retired.holds, countP_or, BitVec.ofNat_add, BitVec.add_assoc]
  · rw [second.stands, first.stands]

/-- Peer records go (R107). -/
theorem sheds_peersGone (peers : ∀ h ∈ s.hu.holds, f h = true → h.own = false) : s.Sheds (s.peersGone f) f := by
  have own (n : BitVec 8) : s.ownGoes f n = false := by
    refine List.any_eq_false.2 fun h mem => ?_
    cases goes : f h with
    | true => rw [peers h mem goes]; nofun
    | false => nofun
  have peer : s.peerGoes f = s.hu.holds.any f := by
    refine Bool.eq_iff_iff.2 ?_
    unfold State.peerGoes
    rw [List.any_eq_true, List.any_eq_true]
    refine exists_congr fun h => and_congr_right fun mem => ?_
    rw [Bool.and_eq_true, Bool.not_eq_true']
    exact and_iff_left_of_imp (peers h mem)
  refine ⟨⟨rfl, fun i => ?_, fun i => ?_, ?_, ?_, rfl⟩, rfl, ⟨rfl, rfl⟩, rfl⟩
  · show s.slot i = _
    cases s.slot i with
    | live sub n tag =>
      dsimp only
      rw [own, if_neg Bool.false_ne_true]
    | _ => rfl
  · have none : (s.slot i).number.any (s.ownGoes f) = false := by
      rw [show s.ownGoes f = fun _ => false from funext own]
      cases (s.slot i).number <;> rfl
    rw [none, Bool.and_false, Bool.false_and, if_neg Bool.false_ne_true]
    rfl
  · rw [peer]
    rfl
  · rw [peer]
    rfl

theorem withdrawObject_eq (s : State) (p : Fin 10) : s.withdrawObject p = s.setEntry p
    (if (s.entry p).any (fun e => e.kind == .object) then (s.withdrawEntry p).entry p else s.entry p) := by
  unfold State.withdrawObject
  cases entry : s.entry p with
  | none =>
    dsimp only
    rw [Option.any_none, if_neg Bool.false_ne_true, ← entry, s.setEntry_self]
  | some e =>
    dsimp only
    rw [Option.any_some]
    by_cases object : e.kind = .object
    · rw [if_pos object, object, beq_self_eq_true, if_pos rfl, withdrawEntry_entry, ← State.withdrawEntry_eq]
    · rw [if_neg object, beq_false_of_ne object, if_neg Bool.false_ne_true, ← entry, s.setEntry_self]

/-- A committed own record that is lit on every link goes (R103). -/
theorem supersede_own (ok : s.HoldsOk) {x : Hold} (stored : x ∈ s.hu.holds) (mine : x.own = true)
    (lit : (x.committed && s.isSuperseded x) = true) :
    ∃ i sub tag, s.slot i = .live sub x.number tag ∧ s.supersede x = State.ownGone i x.number (.ended x.number tag .superseded)
      (s.withdrawObject (holdPlace i)) := by
  obtain ⟨i, sub, tag, slot⟩ := ok.slot_live stored mine
  have number : (s.slot i).number = some x.number := by rw [slot]; rfl
  have found : s.findSlot x.number = some i := State.findSlot_eq_some number fun j same =>
    (ok.numbers i j (by rw [number]; nofun) (number.trans same.symm)).symm
  have committed : sub.commitTag = none := by
    have is := ok.committed x stored mine i number
    rw [((Bool.and_eq_true _ _).mp lit).1, slot] at is
    cases sub <;> first | rfl | cases is
  have form : (s.withdrawObject (holdPlace i)).HoldsOk := by
    rw [withdrawObject_eq]
    exact ok.still rfl rfl rfl rfl
  have slot' : (s.withdrawObject (holdPlace i)).slot i = .live sub x.number tag := by rw [slot_withdrawObject, slot]
  refine ⟨i, sub, tag, slot, ?_⟩
  unfold State.supersede
  rw [if_pos lit, if_pos mine, found]
  dsimp only
  rw [slot]
  dsimp only
  rw [State.endHold_live _ form slot', committed]
  simp

/-- The supersession of one record (R103). -/
theorem sheds_supersede (ok : s.HoldsOk) {x : Hold} (stored : x ∈ s.hu.holds) :
    s.Sheds (s.supersede x) (fun h => h.code == x.code && (x.committed && s.isSuperseded x)) := by
  cases lit : x.committed && s.isSuperseded x with
  | false =>
    have still : s.supersede x = s := if_neg (by rw [lit]; nofun)
    have none := peersGone_none (s := s) (gone := fun _ => false) fun _ _ => rfl
    rw [still]
    refine Sheds.congr ?_ (f := fun _ => false) fun h _ => by rw [Bool.and_false]
    have sheds := sheds_peersGone (s := s) (f := fun _ => false) fun _ _ => nofun
    rwa [none] at sheds
  | true =>
    simp only [Bool.and_true]
    have one (h : Hold) (mem : h ∈ s.hu.holds) (goes : (h.code == x.code) = true) : h = x :=
      ok.sorted.inj mem stored (beq_iff_eq.1 goes)
    cases mine : x.own with
    | false =>
      have is : s.supersede x = s.removeHold x.code := by
        unfold State.supersede
        rw [if_pos lit, mine, if_neg Bool.false_ne_true]
      rw [is, removeHold_peersGone ok.sorted stored mine]
      exact sheds_peersGone fun h mem goes => by rw [one h mem goes]; exact mine
    | true =>
      obtain ⟨i, sub, tag, slot, is⟩ := supersede_own ok stored mine lit
      have own (n : BitVec 8) : s.ownGoes (fun h => h.code == x.code) n = (x.number == n) := by
        refine Bool.eq_iff_iff.2 ?_
        unfold State.ownGoes
        rw [List.any_eq_true]
        constructor
        · rintro ⟨h, mem, goes⟩
          rw [Bool.and_eq_true, Bool.and_eq_true] at goes
          rw [← one h mem goes.1.1]
          exact goes.2
        · exact fun same => ⟨x, stored, by
          rw [same, mine]
          show (x.code == x.code && true && true) = true
          rw [beq_self_eq_true]
          rfl⟩
      have peer : s.peerGoes (fun h => h.code == x.code) = false := by
        refine List.any_eq_false.2 fun h mem goes => ?_
        rw [Bool.and_eq_true] at goes
        rw [one h mem goes.1, mine] at goes
        cases goes.2
      have code : holdCode s.ownId x.number = x.code := by rw [Hold.code, (ok.with.origin_eq stored mine)]
      have count : s.hu.holds.countP (fun h => h.code == x.code) = 1 := by
        rw [List.countP_congr (q := (· == x)) fun h mem => by
          rw [beq_iff_eq, beq_iff_eq]
          exact ⟨fun same => ok.sorted.inj mem stored same, congrArg Hold.code⟩]
        exact List.count_eq_one_of_mem
          (List.Pairwise.imp (fun lt same => absurd (congrArg Hold.code same) (by omega)) ok.sorted) stored
      have others (j : Fin 8) (other : j ≠ i) : (s.slot j).number.any (s.ownGoes fun h => h.code == x.code) = false := by
        cases numbered : (s.slot j).number with
        | none => rfl
        | some n =>
          rw [Option.any_some, own, beq_eq_false_iff_ne]
          rintro rfl
          exact other (ok.numbers j i (by rw [numbered]; nofun) (by rw [numbered, slot]; rfl))
      rw [is, withdrawObject_eq]
      refine ⟨⟨?_, fun j => ?_, fun j => ?_, ?_, ?_, rfl⟩, ?_, ⟨?_, ?_⟩, rfl⟩
      · show s.hu.holds.filter (fun h => h.code != holdCode s.ownId x.number) = _
        rw [code]
        rfl
      · show (s.setSlot i (.ended x.number tag .superseded)).slot j = _
        rw [slot_setSlot]
        by_cases same : j = i
        · rw [if_pos same, same, slot]
          dsimp only
          rw [own, beq_self_eq_true, if_pos rfl]
        · rw [if_neg same]
          have none := others j same
          cases there : s.slot j with
          | live sub' n tag' =>
            rw [there, show (Slot.live sub' n tag').number = some n from rfl, Option.any_some] at none
            dsimp only
            rw [none, if_neg Bool.false_ne_true]
          | _ => rfl
      · show (s.setEntry (holdPlace i) _).entry (holdPlace j) = _
        rw [State.entry_setEntry]
        by_cases same : j = i
        · rw [if_pos (congrArg holdPlace same), same, slot]
          simp only [Slot.isLive, Slot.number, Option.any_some, own, beq_self_eq_true, Bool.true_and]
        · rw [if_neg fun e => same (holdPlace_inj e), others j same, Bool.and_false, Bool.false_and,
            if_neg Bool.false_ne_true]
      · show s.hu.overflow = _
        rw [peer, Bool.not_false, Bool.and_true]
      · show s.clp.marks.overflow = _
        rw [peer, Bool.and_false, Bool.or_false]
      · rw [count]
        rfl
      · exact State.entry_setEntry_ne s (holdPlace i) 8 _ (Ne.symm (holdPlace_ne_advert i))
      · exact State.entry_setEntry_ne s (holdPlace i) 9 _ (Ne.symm (holdPlace_ne_solicit i))

theorem isSuperseded_congr (links : t.tv.links = s.tv.links) : t.isSuperseded = s.isSuperseded := by
  funext h
  unfold State.isSuperseded
  rw [links]

theorem retires_congr (links : t.tv.links = s.tv.links) (node : Nat) : t.retires node = s.retires node := by
  funext h
  unfold State.retires
  rw [isSuperseded_congr links]

theorem sheds_supersedes {l : List Hold} (ok : s.HoldsOk) (distinct : (l.map Hold.code).Nodup)
    (stored : ∀ x ∈ l, x ∈ s.hu.holds) : s.Sheds (l.foldl (fun s h => s.supersede h) s)
      (fun h => l.any (fun x => h.code == x.code && (x.committed && s.isSuperseded x))) := by
  induction l generalizing s with
  | nil =>
    have sheds := sheds_peersGone (s := s) (f := fun _ => false) fun _ _ => nofun
    rwa [peersGone_none fun _ _ => rfl] at sheds
  | cons x l ih =>
    obtain ⟨fresh, distinct⟩ := List.nodup_cons.1 distinct
    have first := stored x (.head _)
    have sheds := sheds_supersede ok first
    have form : (s.supersede x).HoldsOk :=
      (ok.with.supersede fun peer => ok.with.origin_ne first peer).ok (Work.supersede s x)
    have rest := ih form distinct fun y mem => by
      rw [sheds.retired.holds]
      refine List.mem_filter.2 ⟨stored y (.tail _ mem), ?_⟩
      have other : y.code ≠ x.code := fun same => fresh (same ▸ List.mem_map_of_mem mem)
      rw [beq_false_of_ne other, Bool.false_and]
      rfl
    rw [isSuperseded_congr sheds.links] at rest
    exact sheds.trans rest

/-- The supersession check for a node's link set (R103). -/
theorem sheds_checkSuperseded (ok : s.HoldsOk) (node : Nat) : s.Sheds (s.checkSuperseded node) (s.retires node) := by
  have codes : (s.hu.holds.map Hold.code).Nodup := List.Pairwise.map _ (fun _ _ lt => Nat.ne_of_lt lt) ok.sorted
  refine (sheds_supersedes ok (codes.sublist (List.filter_sublist.map _)) fun x mem =>
    (List.mem_filter.1 mem).1).congr fun h mem => Bool.eq_iff_iff.2 ?_
  unfold State.retires
  rw [List.any_eq_true, Bool.and_eq_true, Bool.and_eq_true, and_right_comm]
  constructor
  · rintro ⟨x, goes, same⟩
    obtain ⟨stored, keyed⟩ := List.mem_filter.1 goes
    rw [Bool.and_eq_true, Bool.and_eq_true, beq_iff_eq] at same
    rw [ok.sorted.inj mem stored same.1]
    exact ⟨same.2, keyed⟩
  · rintro ⟨lit, keyed⟩
    refine ⟨h, List.mem_filter.2 ⟨mem, keyed⟩, ?_⟩
    rw [Bool.and_eq_true, Bool.and_eq_true]
    exact ⟨beq_self_eq_true _, lit⟩

end State

end Sys2Proof.Machine

namespace Sys2Proof.Machine

/-! An ADVERT that is stored (R27 to R32). -/

/-- Two tables of the same records are one. -/
theorem Table.ext {α : Type} {key : α → Nat} {l l' : List α} (h : Sorted key l) (h' : Sorted key l')
    (same : ∀ x, x ∈ l ↔ x ∈ l') : l = l' := by
  have distinct {l : List α} (h : Sorted key l) : l.Nodup :=
    List.Pairwise.imp (fun lt same => absurd (congrArg key same) (Nat.ne_of_lt lt)) h
  refine List.Perm.eq_of_pairwise (fun x y _ _ lt gt => absurd lt (Nat.lt_asymm gt)) h h' ?_
  exact (List.perm_ext_iff_of_nodup (distinct h) (distinct h')).2 same

theorem sorted_records {es : List LinkEntry} (rising : Table.Sorted LinkEntry.fromPort es) (node : Nat) :
    Table.Sorted LinkRecord.code (es.map (LinkEntry.record node)) :=
  List.Pairwise.map _ (fun a b lt => show node * 256 + a.fromPort < node * 256 + b.fromPort by omega) rising

section
variable {links : List LinkRecord} (sorted : Table.Sorted LinkRecord.code links) (ports : ∀ l ∈ links, l.key.port ≤ 15)
  {node : Nat} {es : List LinkEntry} (rising : Table.Sorted LinkEntry.fromPort es) (fits : ∀ e ∈ es, e.fromPort ≤ 15)
include sorted ports rising fits

/-- A link set that takes the place of its node's old one (R24, R31). -/
theorem mem_storeLinks_iff :
    Table.Sorted LinkRecord.code (storeLinks node es (dropLinks node links)) ∧
    ∀ l, l ∈ storeLinks node es (dropLinks node links) ↔ l ∈ es.map (LinkEntry.record node) ∨ l ∈ dropLinks node links := by
  have base : Table.Sorted LinkRecord.code (dropLinks node links) := sorted.sublist List.filter_sublist
  have differ := (sorted_records rising node).imp fun lt => Nat.ne_of_lt lt
  have stored : storeLinks node es (dropLinks node links) =
      (es.map (LinkEntry.record node)).foldl (fun acc x => Table.put LinkRecord.code x acc) (dropLinks node links) := by
    rw [List.foldl_map]
    rfl
  obtain ⟨sorted', mem⟩ := Table.foldl_put base differ
  rw [stored]
  refine ⟨sorted', fun l => (mem l).trans (or_congr_right (and_iff_left_of_imp fun old x new same => ?_))⟩
  obtain ⟨e, here, rfl⟩ := List.mem_map.1 new
  obtain ⟨stays, away⟩ := mem_dropLinks.1 old
  refine away ?_
  rw [LinkKey.code_inj ((ports l stays).trans_lt (by decide)) ((fits e here).trans_lt (by decide)) same]
  rfl

theorem linkSet_storeLinks : linkSet node (storeLinks node es (dropLinks node links)) = es.map (LinkEntry.record node) := by
  obtain ⟨stored, mem⟩ := mem_storeLinks_iff sorted ports rising fits (node := node)
  refine Table.ext (stored.sublist List.filter_sublist) (sorted_records rising node) fun l => ?_
  rw [linkSet, List.mem_filter, mem, beq_iff_eq]
  constructor
  · rintro ⟨new | old, here⟩
    · exact new
    · exact absurd here (mem_dropLinks.1 old).2
  · intro new
    obtain ⟨e, -, rfl⟩ := List.mem_map.1 new
    exact ⟨.inl new, rfl⟩

theorem dropLinks_storeLinks : dropLinks node (storeLinks node es (dropLinks node links)) = dropLinks node links := by
  obtain ⟨stored, mem⟩ := mem_storeLinks_iff sorted ports rising fits (node := node)
  refine Table.ext (stored.sublist List.filter_sublist) (sorted.sublist List.filter_sublist) fun l => ?_
  rw [mem_dropLinks, mem]
  constructor
  · rintro ⟨new | old, away⟩
    · obtain ⟨e, -, rfl⟩ := List.mem_map.1 new
      exact absurd rfl away
    · exact old
  · exact fun old => ⟨.inr old, (mem_dropLinks.1 old).2⟩

end

/-- Verification is all that `reverifiedLinks` changes of a selection of links by their from-node. -/
theorem reverifiedLinks_view {α : Type} (node : Nat) (nodes : List NodeRecord) (links : List LinkRecord) {q : LinkRecord → Bool}
    {g : LinkRecord → α} (selects : ∀ l b, q { l with verified := b } = q l) (shows_ : ∀ l b, g { l with verified := b } = g l) :
    ((reverifiedLinks node nodes links).filter q).map g = (links.filter q).map g := by
  unfold reverifiedLinks
  rw [List.filter_map, List.map_map]
  have select : (q ∘ fun l => if l.key.node = node ∨ l.toNode = node then
      { l with verified := reverseStored nodes links l } else l) = q := by
    funext l
    rw [Function.comp_apply, reverified_same, selects]
  rw [select]
  refine List.map_congr_left fun l _ => ?_
  rw [Function.comp_apply, reverified_same, shows_]

namespace State

variable {s t u : State}

/-- The state with an ADVERT's record and link set stored and verified, before the supersession check (R28, R31, R33, R36). -/
def advertTabled (origin : Nat) (a : Advert) (s : State) : State :=
  { s with
    tv := {
      nodes := Table.put NodeRecord.id (s.advertRecord origin a) s.tv.nodes
      links := reverifiedLinks origin (Table.put NodeRecord.id (s.advertRecord origin a) s.tv.nodes) (s.advertLinks origin a)
      viewIncomplete := s.tv.viewIncomplete || decide (0 < (s.advertRecord origin a).missing)
      counter := s.tv.counter + 2#32 }
    clp.marks.viewIncomplete := s.clp.marks.viewIncomplete ||
      (!s.tv.viewIncomplete && decide (0 < (s.advertRecord origin a).missing)) }

theorem noteMissing_of_found {origin : Nat} {r : NodeRecord} (found : Table.lookup NodeRecord.id origin s.tv.nodes = some r) :
    s.noteMissing origin = { s with
      tv.viewIncomplete := s.tv.viewIncomplete || decide (0 < r.missing)
      clp.marks.viewIncomplete := s.clp.marks.viewIncomplete || (!s.tv.viewIncomplete && decide (0 < r.missing)) } := by
  unfold State.noteMissing
  rw [found]
  dsimp only
  by_cases some_ : 0 < r.missing
  · rw [if_pos some_, State.setViewIncomplete_eq, decide_eq_true some_, Bool.or_true, Bool.and_true, Bool.bne_true]
  · rw [if_neg some_, decide_eq_false some_, Bool.or_false, Bool.and_false, Bool.or_false]

/-- The peer's link set as it is replaced (R31). -/
theorem replacePeerLinks_advert (sorted : Table.Sorted NodeRecord.id s.tv.nodes) (origin : Nat) (a : Advert) :
    (s.withRecord (a.record origin)).replacePeerLinks origin a.entries = { s with
      tv.nodes := Table.put NodeRecord.id (s.advertRecord origin a) s.tv.nodes
      tv.links := reverifiedLinks origin (Table.put NodeRecord.id (s.advertRecord origin a) s.tv.nodes)
        (s.advertLinks origin a) } := by
  have found : Table.lookup NodeRecord.id origin (s.withRecord (a.record origin)).tv.nodes = some (a.record origin) :=
    withRecord_found sorted (a.record origin)
  rw [← replacePeerLinks_links sorted, ← replacePeerLinks_nodes sorted, replacePeerLinks_eq]
  unfold State.setMissing State.withLinks
  dsimp only
  rw [found]
  rfl

theorem storeAdvert_tabled (sorted : Table.Sorted NodeRecord.id s.tv.nodes) (origin : Nat) (a : Advert) :
    s.storeAdvert origin a = (s.advertTabled origin a).checkSuperseded origin := by
  rw [storeAdvert_eq, replacePeerLinks_advert sorted,
    noteMissing_of_found (Table.lookup_put_self sorted (s.advertRecord origin a))]
  rfl

/-- The branches of R27 to R29 that store the ADVERT. -/
theorem advertFrame_stored (ok : s.HoldsOk) {body : List Byte} {a : Advert} (read : readAdvert body = some a)
    (stays : a.withdraw = false) {origin : Nat}
    (accepted : (s.knows origin = false ∧ s.tv.nodes.length < 64) ∨
      (∃ r, Table.lookup NodeRecord.id origin s.tv.nodes = some r ∧
        (a.fresh = true ∨ (1 ≤ (a.sequence - r.sequence).toNat ∧ (a.sequence - r.sequence).toNat ≤ 32767)))) :
    s.advertFrame origin body =
      (s.peersGone fun h => a.fresh && !h.own && h.origin == origin).storeAdvert origin a := by
  rcases accepted with ⟨unknown, room⟩ | ⟨r, found, newer⟩
  · rw [advertFrame_unknown read unknown, peersGone_none fun h stored => ?_]
    · unfold State.advertUnknown
      rw [if_neg (by rw [stays]; nofun), if_pos (show s.tv.nodes.length < Config.nodePlaces from room)]
    · cases mine : h.own with
      | true => rw [Bool.not_true, Bool.and_false, Bool.false_and]
      | false =>
        have other : h.origin ≠ origin := by
          rintro rfl
          rw [ok.known h stored mine] at unknown
          cases unknown
        rw [beq_false_of_ne other, Bool.and_false]
  · rw [advertFrame_known read found]
    unfold State.advertKnown
    dsimp only
    rw [if_neg (show ¬a.withdraw = true by rw [stays]; nofun)]
    cases fresh : a.fresh with
    | true =>
      rw [if_pos rfl, removePeerHolds_eq ok.sorted]
      simp only [Bool.true_and]
    | false =>
      obtain ⟨least, most⟩ := newer.resolve_left (by rw [fresh]; nofun)
      rw [if_neg Bool.false_ne_true, if_neg (by unfold sequenceAhead; omega), if_pos (show sequenceAhead _ _ ≤ _ from most),
        peersGone_none fun h _ => by rw [Bool.false_and, Bool.false_and]]

theorem HoldsOk.peersGone (ok : s.HoldsOk) {origin : Nat} (fresh : Bool) :
    (s.peersGone fun h => fresh && !h.own && h.origin == origin).HoldsOk := by
  cases fresh with
  | true =>
    have gone := (ok.with.removePeerHolds origin).ok (Work.removePeerHolds s origin)
    rw [removePeerHolds_eq ok.sorted] at gone
    simpa only [Bool.true_and] using gone
  | false =>
    rwa [peersGone_none fun h _ => by rw [Bool.false_and, Bool.false_and]]

theorem HoldsOk.advertTabled (ok : s.HoldsOk) (sorted : Table.Sorted NodeRecord.id s.tv.nodes) (origin : Nat) (a : Advert) :
    (s.advertTabled origin a).HoldsOk := by
  refine ok.knowing rfl rfl rfl fun n known => ?_
  show hasNode (Table.put NodeRecord.id (s.advertRecord origin a) s.tv.nodes) n = true
  rw [hasNode_put sorted, known, Bool.true_or]

end State

open State

theorem dropLinks_comm (m n : Nat) (links : List LinkRecord) :
    dropLinks m (dropLinks n links) = dropLinks n (dropLinks m links) := List.filter_comm ..

/-- The parts of a stored ADVERT's state. -/
theorem advert_stored {origin : Nat} {a : Advert} {room : Nat} {s t : State} (form : s.ViewForm)
    (widths : ∀ e ∈ a.entries, e.widths)
    (is : room = 496 - (dropLinks origin (dropLinks s.ownId s.tv.links)).length)
    (nodes : t.tv.nodes = Table.put NodeRecord.id (s.advertRecord origin a) s.tv.nodes)
    (links : t.tv.links = reverifiedLinks origin (Table.put NodeRecord.id (s.advertRecord origin a) s.tv.nodes)
      (s.advertLinks origin a)) :
    Table.lookup NodeRecord.id origin t.tv.nodes =
      some ⟨origin, a.profile, a.transit, a.sequence, 0, false, (validEntries a.entries).length - room⟩ ∧
    (∀ k, k ≠ origin → Table.lookup NodeRecord.id k t.tv.nodes = Table.lookup NodeRecord.id k s.tv.nodes) ∧
    (linkSet origin t.tv.links).map LinkRecord.entry = (validEntries a.entries).take room ∧
    (dropLinks origin t.tv.links).map (fun l => { l with verified := false }) =
      (dropLinks origin s.tv.links).map (fun l => { l with verified := false }) := by
  have rising : Table.Sorted LinkEntry.fromPort ((validEntries a.entries).take room) :=
    (validEntries_spec a.entries).1.sublist (List.take_sublist ..)
  have fits : ∀ e ∈ (validEntries a.entries).take room, e.fromPort ≤ 15 := fun e mem =>
    (validEntries_inRange widths e (List.mem_of_mem_take mem)).1.1
  have stored : s.advertLinks origin a =
      storeLinks origin ((validEntries a.entries).take room) (dropLinks origin s.tv.links) := by
    rw [is, dropLinks_comm]
    rfl
  have ports := form.tables.fromPorts
  rw [nodes, links, stored]
  refine ⟨?_, fun k other => Table.lookup_put_ne form.nodesSorted _ other, ?_, ?_⟩
  · rw [is, dropLinks_comm]
    exact Table.lookup_put_self form.nodesSorted (s.advertRecord origin a)
  · rw [linkSet, reverifiedLinks_view (g := LinkRecord.entry) _ _ _ (fun _ _ => rfl) (fun _ _ => rfl), ← linkSet,
      linkSet_storeLinks form.linksSorted ports rising fits, List.map_map]
    exact List.map_id _
  · rw [dropLinks, reverifiedLinks_view _ _ _ (fun _ _ => rfl) (fun _ _ => rfl), ← dropLinks,
      dropLinks_storeLinks form.linksSorted ports rising fits]

/-- Settles O29: the peer records of a fresh start go, the record and the link set are stored, and the supersession check
takes the holds that the link set lights. -/
theorem advertIsStoredWhole : Obligations.AdvertIsStoredWhole := by
  unfold Obligations.AdvertIsStoredWhole
  rintro origin body a _ room u s hears form ok read stays accepted rfl room_eq is
  have tv : u.tv = s.tv := is ▸ s.heard_tv
  have hu : u.hu = s.hu := is ▸ s.heard_hu
  have sc : u.sc = s.sc := is ▸ s.heard_sc
  have knows : u.knows = s.knows := is ▸ s.heard_knows
  have viewMark : u.clp.marks.viewIncomplete = s.clp.marks.viewIncomplete := is ▸ s.heard_viewMark
  have okU : u.HoldsOk := ok.of_eq hu tv sc
  have sorted : Table.Sorted NodeRecord.id u.tv.nodes := tv ▸ form.nodesSorted
  have taken := exec_advertReceived hears
  rw [← is, advertFrame_stored okU read stays (by rw [knows, tv]; exact accepted)] at taken
  generalize goes : (fun h : Hold => a.fresh && !h.own && h.origin == origin.toNat) = peers at taken
  have okW : (u.peersGone peers).HoldsOk := goes ▸ okU.peersGone a.fresh
  have gone : u.Sheds (u.peersGone peers) peers := sheds_peersGone fun h _ is => by
    rw [← goes, Bool.and_eq_true, Bool.and_eq_true, Bool.not_eq_true'] at is
    exact is.1.2
  rw [storeAdvert_tabled (s := u.peersGone peers) sorted] at taken
  have sheds := sheds_checkSuperseded (HoldsOk.advertTabled (s := u.peersGone peers) okW sorted origin.toNat a) origin.toNat
  generalize (State.advertTabled origin.toNat a (u.peersGone peers)).checkSuperseded origin.toNat = t at taken sheds
  have own : (u.peersGone peers).ownId = s.ownId := ownId_congr (s := s) (congrArg Sc.identity sc)
  have record : (u.peersGone peers).advertRecord origin.toNat a = s.advertRecord origin.toNat a := by
    unfold State.advertRecord
    rw [own, show (u.peersGone peers).tv.links = u.tv.links from rfl, tv]
  have linked : (u.peersGone peers).advertLinks origin.toNat a = s.advertLinks origin.toNat a := by
    unfold State.advertLinks
    rw [own, show (u.peersGone peers).tv.links = u.tv.links from rfl, tv]
  have missing : (0 < (s.advertRecord origin.toNat a).missing) = (room < (validEntries a.entries).length) := by
    rw [room_eq, dropLinks_comm]
    exact propext Nat.sub_pos_iff_lt
  obtain ⟨recorded, others, stored, rest⟩ := advert_stored (s := s) (t := t) form (readAdvert_eq_some read).2.2 room_eq
    (by
      rw [sheds.stands]
      show Table.put _ ((u.peersGone peers).advertRecord _ a) u.tv.nodes = _
      rw [record, tv])
    (by
      rw [sheds.stands]
      show reverifiedLinks _ (Table.put _ ((u.peersGone peers).advertRecord _ a) u.tv.nodes) _ = _
      rw [record, linked, tv])
  have retires := retires_congr sheds.links origin.toNat
  rw [← retires] at sheds
  have combined : u.Retired t (fun h => peers h || t.retires origin.toNat h) :=
    gone.retired.trans gone.attempt (sheds.retired.from_eq rfl (fun _ => rfl) rfl rfl)
  refine ⟨t, taken, recorded, others, stored, rest, ?_, ?_, fun fresh _ h mem peer same => ?_, ?_, ?_, ?_, ?_, ?_⟩
  · rw [sheds.stands]
    show (u.tv.viewIncomplete || decide (0 < ((u.peersGone peers).advertRecord _ a).missing)) = _
    rw [record, tv]
    simp only [missing]
  · intro all alls
    have same : all = fun h => peers h || t.retires origin.toNat h := by rw [alls, ← goes]
    refine ⟨same ▸ combined, ?_⟩
    rw [same, countP_or, sheds.counter, ← hu]
    show u.tv.counter + BitVec.ofNat 32 (u.hu.holds.countP peers) + 2#32 +
      BitVec.ofNat 32 ((u.hu.holds.filter fun h => !peers h).countP (t.retires origin.toNat)) = _
    rw [tv, BitVec.ofNat_add, BitVec.ofNat_add]
    ac_rfl
  · rw [combined.holds, List.mem_filter] at mem
    have goes : peers h = true := by
      rw [← goes]
      show (a.fresh && !h.own && h.origin == origin.toNat) = true
      rw [same, fresh, peer, beq_self_eq_true]
      rfl
    rw [goes] at mem
    cases mem.2
  · exact sheds.places.1
  · exact sheds.places.2
  · rw [sheds.stands]
    rfl
  · rw [sheds.stands]
    show ({ u.clp with marks := _ } : Clp) = _
    rw [← viewMark, ← tv]
    simp only [← missing, ← record]
    rfl
  · rw [sheds.stands]
    rfl

end Sys2Proof.Machine

namespace Sys2Proof.Machine

/-! A port change rebuilds the own link set (R24, R49, R50). -/

namespace State

variable {s t u : State}

/-! ### What the content report leaves (R60, R61) -/

theorem contentReport_stands (s : State) : s.contentReport =
    { s with ads := s.contentReport.ads, lac.due := s.contentReport.lac.due } := by
  rw [contentReport_eq]
  split <;> rfl

theorem contentReport_hu (s : State) : s.contentReport.hu = s.hu := by
  rw [contentReport_eq]
  split <;> rfl

theorem contentReport_clp (s : State) : s.contentReport.clp = s.clp := by
  rw [contentReport_eq]
  split <;> rfl

theorem contentReport_muted (muted : s.sc.station = .muted) : s.contentReport = s := by
  rw [contentReport_eq, if_pos muted]

theorem contentReport_ads (running : s.sc.station ≠ .muted) : s.contentReport.ads =
    { s.ads with mark := .waiting, entryPresent := s.ads.entryPresent || (s.advertising && !s.ads.postDropWait) } := by
  rw [contentReport_eq, if_neg running]

theorem contentReport_entry_ne {p : Fin 10} (other : p ≠ 8) : s.contentReport.entry p = s.entry p := by
  rw [contentReport_eq]
  split
  · rfl
  · exact State.entry_setEntry_ne s 8 p _ other

theorem not_muted_of_advertising (h : s.advertising = true) : s.sc.station ≠ .muted := by
  intro muted
  rw [State.advertising, muted] at h
  cases h

theorem contentReport_entry_made (allowed : s.advertising = true) (dropped : s.ads.postDropWait = false)
    (only : s.advertsOnly) : s.contentReport.entry 8 = s.advertMade 1 := by
  have running := not_muted_of_advertising allowed
  rw [contentReport_eq, if_neg running, allowed, dropped, ← dueEntry_advert running only]
  exact State.entry_setEntry_self s 8 _

theorem contentReport_entry_stays (quiet : (s.advertising && !s.ads.postDropWait) = false) :
    s.contentReport.entry 8 = s.entry 8 := by
  rw [contentReport_eq, quiet]
  split
  · rfl
  · exact State.entry_setEntry_self s 8 _

theorem advertMade_congr (entry : t.entry 8 = s.entry 8) (events : t.events = s.events)
    (attempt : t.lac.attempt = s.lac.attempt) (c : Fin 3) : t.advertMade c = s.advertMade c := by
  unfold State.advertMade State.newAdvert State.onLine
  rw [entry, events, attempt]

/-! ### The own link of a port -/

theorem ownLink_fromPort {p : Nat} {e : LinkEntry} (found : s.ownLink p = some e) : e.fromPort = p := by
  unfold State.ownLink at found
  split at found
  · split at found <;> cases found
    rfl
  · cases found

theorem mem_ownLinkSet {e : LinkEntry} : e ∈ s.ownLinkSet ↔ e.fromPort < 16 ∧ s.ownLink e.fromPort = some e := by
  unfold State.ownLinkSet allPorts
  rw [List.mem_filterMap]
  constructor
  · rintro ⟨p, inside, found⟩
    rw [ownLink_fromPort found]
    exact ⟨List.mem_range.1 inside, found⟩
  · exact fun ⟨inside, found⟩ => ⟨e.fromPort, List.mem_range.2 inside, found⟩

/-- The own link that stands under a port's key, once the own link set is replaced (R24, R49). -/
theorem lookup_ownLinks {links : List LinkRecord} (sorted : Table.Sorted LinkRecord.code links)
    (ports : ∀ l ∈ links, l.key.port ≤ 15) (node : Nat) (q : Fin 16) :
    (Table.lookup LinkRecord.code (LinkKey.code ⟨node, q.val⟩)
      (storeLinks node s.ownLinkSet (dropLinks node links))).map LinkRecord.entry = s.ownLink q.val := by
  obtain ⟨stored, mem⟩ := mem_storeLinks_iff sorted ports (node := node) s.ownLinkSet_pairwise
    fun e mem => Nat.le_of_lt_succ (mem_ownLinkSet.1 mem).1
  cases found : s.ownLink q.val with
  | some e =>
    have port := ownLink_fromPort found
    have here : e.record node ∈ storeLinks node s.ownLinkSet (dropLinks node links) :=
      (mem _).2 (.inl (List.mem_map_of_mem (mem_ownLinkSet.2 (by rw [port]; exact ⟨q.isLt, found⟩))))
    rw [(Table.lookup_eq_some stored).2 ⟨here, by rw [← port]; rfl⟩]
    rfl
  | none =>
    rw [Table.lookup_eq_none.2 fun l there same => ?_]
    · rfl
    · rcases (mem l).1 there with new | old
      · obtain ⟨e, fits, rfl⟩ := List.mem_map.1 new
        obtain ⟨inside, stands⟩ := mem_ownLinkSet.1 fits
        have port : e.fromPort = q.val := by
          have : node * 256 + e.fromPort = node * 256 + q.val := same
          omega
        rw [port, found] at stands
        cases stands
      · obtain ⟨stays, away⟩ := mem_dropLinks.1 old
        exact away (congrArg LinkKey.node
          (LinkKey.code_inj ((ports l stays).trans_lt (by decide)) (q.isLt.trans (by decide)) same))

/-- The own link that stands under a port's key after the own link set is replaced and verified. -/
theorem lookup_replaceOwnLinks (form : s.ViewForm) (q : Fin 16) :
    (Table.lookup LinkRecord.code (LinkKey.code ⟨s.ownId, q.val⟩) (s.replaceOwnLinks s.ownLinkSet).tv.links).map
      LinkRecord.entry = s.ownLink q.val := by
  rw [replaceOwnLinks_links, reverifiedLinks, lookup_map, Option.map_map, ← lookup_ownLinks form.linksSorted
    form.tables.fromPorts]
  · refine congrArg (fun f => Option.map f _) (funext fun l => ?_)
    rw [Function.comp_apply, reverified_same]
    rfl
  · intro l
    rw [reverified_same]
    rfl

theorem dropLinks_replaceOwnLinks (form : s.ViewForm) :
    (dropLinks s.ownId (s.replaceOwnLinks s.ownLinkSet).tv.links).map (fun l => { l with verified := false }) =
      (dropLinks s.ownId s.tv.links).map (fun l => { l with verified := false }) := by
  rw [replaceOwnLinks_links, dropLinks, reverifiedLinks_view _ _ _ (fun _ _ => rfl) (fun _ _ => rfl), ← dropLinks,
    dropLinks_storeLinks form.linksSorted form.tables.fromPorts s.ownLinkSet_pairwise
      fun e mem => Nat.le_of_lt_succ (mem_ownLinkSet.1 mem).1]

/-- A request that sets a port record and answers (R44 to R47). -/
theorem exec_portChange (takes : s.takes) (station : s.sc.station ≠ .unconfigured) {c : Instr} {tag : Tag} {port : Byte}
    {r : PortRecord} {answer : Completion} (lt : port.toNat < 16) (fitted : port.toNat < s.portCount)
    (request : (∃ enabled cost noise dispersion used, c = .portSet tag port enabled cost noise dispersion used ∧
        r = ⟨enabled.getLsbD 0, max 1 cost.toNat, noise.toNat, dispersion.toInt, used, s.pt.ports[port.toNat].trace⟩ ∧
        answer = ⟨.portSet, tag, if cost = 0#16 then .clamped else .ok, .none, false, .port port.toNat r⟩) ∨
      (∃ word node far, c = .portTrace tag port word ∧ readTraceWord word = some (node, far) ∧
        r = { s.pt.ports[port.toNat] with trace := if node = s.ownId then .looped else .heard node far } ∧
        answer = ⟨.portTrace, tag, .ok, .none, false, .trace port.toNat r.trace⟩) ∨
      (c = .portTraceLoss tag port ∧ r = { s.pt.ports[port.toNat] with trace := .dark } ∧
        answer = ⟨.portTrace, tag, .ok, .none, false, .trace port.toNat .dark⟩)) :
    exec c s = .next ((s.accepted.changePort port.toNat r).post answer) := by
  rcases request with ⟨enabled, cost, noise, dispersion, used, rfl, rfl, rfl⟩ | ⟨word, node, far, rfl, read, rfl, rfl⟩ |
    ⟨rfl, rfl, rfl⟩
  · rw [exec_portSet takes station lt fitted, written_eq]
  · rw [exec_portTrace takes station lt fitted, read]
    exact congrArg _ (recordTrace_eq lt ..)
  · rw [exec_portTraceLoss takes station lt fitted]
    exact congrArg _ (recordTrace_eq lt ..)

end State

open State

/-- Settles O24: the own link set is replaced, then the supersession check runs, then the content is reported. -/
theorem portChangeRebuildsOwnLinks : Obligations.PortChangeRebuildsOwnLinks := by
  unfold Obligations.PortChangeRebuildsOwnLinks
  intro c tag port r answer s takes form _ ok joined lt fitted request
  have station : s.sc.station ≠ .unconfigured := fun is => by rw [is] at joined; cases joined
  have taken := exec_portChange takes station lt fitted request
  refine ⟨fun same => ?_, fun differs => ?_⟩
  · have still : s.accepted.changePort port.toNat r = s.accepted :=
      if_pos ((port_eq (s := s.accepted) lt).trans same.symm)
    rw [taken, still, State.post_accepted]
  · have changed : s.accepted.changePort port.toNat r = (s.accepted.setPort port.toNat r).rebuild := by
      unfold State.changePort
      rw [if_neg fun same => differs (same.symm.trans (port_eq (s := s.accepted) lt)),
        if_pos (show s.accepted.sc.station.joined = true from joined)]
    rw [changed, setPort_eq (s := s.accepted) lt, State.rebuild] at taken
    generalize is : ({ s.accepted with pt.ports := s.accepted.pt.ports.set port.toNat r } : State) = v at taken
    have tv : v.tv = s.tv := is ▸ rfl
    have hu : v.hu = s.hu := is ▸ rfl
    have sc : v.sc = s.sc := is ▸ rfl
    have own : v.ownId = s.ownId := ownId_congr (congrArg Sc.identity sc)
    have formV : v.ViewForm := form.of_eq tv sc
    have okY : (v.replaceOwnLinks v.ownLinkSet).HoldsOk :=
      (ok.of_eq hu tv sc : v.HoldsOk).still rfl rfl rfl rfl
    have found := lookup_replaceOwnLinks formV
    have others := dropLinks_replaceOwnLinks formV
    have sheds := sheds_checkSuperseded okY v.ownId
    have base : v.replaceOwnLinks v.ownLinkSet = { s with
      events := s.events + 1, pt.ports := s.pt.ports.set port.toNat r
      tv.links := (v.replaceOwnLinks v.ownLinkSet).tv.links, tv.counter := s.tv.counter + 1#32
      clp.select := true, clp.port := .answering [0x61#8], clp.reservations := s.clp.reservations + 1 } := by
      rw [← is]
      rfl
    rw [own] at found others sheds taken
    rw [base] at sheds
    generalize (v.replaceOwnLinks v.ownLinkSet).tv.links = links at base found others sheds
    rw [base] at taken
    rw [tv] at others
    generalize State.checkSuperseded s.ownId _ = z at taken sheds
    have stands := sheds.stands
    have report := z.contentReport_stands
    have scZ : z.sc = s.sc := by rw [stands]
    have adsZ : z.ads = s.ads := by rw [stands]
    have advertising : z.advertising = s.advertising := by unfold State.advertising; rw [scZ]
    have linksT : z.contentReport.tv.links = links := by rw [report, stands]
    have portsT : z.contentReport.pt.ports = s.pt.ports.set port.toNat r := by rw [report, stands]
    rw [← retires_congr (t := z.contentReport.post answer) (by exact linksT)] at sheds
    refine ⟨z.contentReport.post answer, taken, portsT, fun q => ?_, ?_, ?_, ?_, ?_, ?_, ?_, ?_, ?_, ?_, ?_, ?_, ?_, ?_⟩
    · have ports : (z.contentReport.post answer).pt.ports = v.pt.ports := portsT.trans (is ▸ rfl)
      have port : v.port q.val = v.pt.ports[q] := port_eq q.isLt
      have count : v.portCount = s.portCount := is ▸ rfl
      refine (congrArg (fun l => Option.map LinkRecord.entry (Table.lookup LinkRecord.code _ l)) linksT).trans ?_
      rw [found, ports, ← count, ← port]
      rfl
    · exact (congrArg (fun l => (dropLinks s.ownId l).map _) linksT).trans others
    · exact (congrArg (fun x : State => x.tv.nodes) report).trans (by rw [stands])
    · exact (congrArg (fun x : State => x.tv.viewIncomplete) report).trans (by rw [stands])
    · refine (congrArg (fun x : State => x.tv.counter) report).trans (sheds.counter.trans ?_)
      rw [BitVec.ofNat_add, ← BitVec.add_assoc]
    · have hold (i : Fin 8) : z.contentReport.entry (holdPlace i) = z.entry (holdPlace i) :=
        contentReport_entry_ne (holdPlace_ne_advert i)
      have mark : z.contentReport.clp.marks.overflow = z.clp.marks.overflow := by rw [contentReport_clp]
      exact (sheds.retired.to_eq (u := z.contentReport.post answer) (contentReport_hu z) hold mark).from_eq rfl (fun _ => rfl)
        rfl rfl
    · refine (congrArg (fun x : State => (x.post answer).clp) report).trans ?_
      have flow : (z.contentReport.post answer).clp.marks.overflow = z.clp.marks.overflow := by
        show z.contentReport.clp.marks.overflow = _
        rw [contentReport_clp]
      rw [flow, stands]
      rfl
    · intro muted
      exact (congrArg State.ads (contentReport_muted (scZ ▸ muted))).trans adsZ
    · intro running
      refine (contentReport_ads (s := z) (by rw [scZ]; exact running)).trans ?_
      rw [adsZ, advertising]
      rfl
    · intro allowed dropped only
      refine (contentReport_entry_made (s := z) (by rw [advertising]; exact advertising_iff.2 allowed) (adsZ ▸ dropped) ?_).trans ?_
      · intro e
        rw [sheds.places.1]
        exact only e
      · exact advertMade_congr sheds.places.1 (by rw [stands]) sheds.attempt 1
    · intro quiet
      refine (contentReport_entry_stays (s := z) ?_).trans sheds.places.1
      rw [advertising, adsZ]
      rcases quiet with quiet | dropped
      · rw [Bool.eq_false_of_not_eq_true fun h => (advertising_iff.1 h).elim quiet.1 quiet.2, Bool.false_and]
      · rw [dropped, Bool.not_true, Bool.and_false]
    · exact (contentReport_entry_ne (by decide)).trans sheds.places.2
    · refine (congrArg State.lac report).trans ?_
      rw [stands]
      rfl
    · generalize z.contentReport = x at report
      rw [report, stands]
      rfl

end Sys2Proof.Machine

namespace Sys2Proof.Machine

/-! POLL and QUERY own hold (R115, R116). -/

namespace State

variable {s : State}

theorem slots_toList (s : State) : s.hu.slots.toList = allSlots.map s.slot := by
  apply List.ext_getElem
  · rw [Vector.length_toList]
    rfl
  · intro i lt _
    rw [Vector.length_toList] at lt
    have place : allSlots[i]'lt = ⟨i, lt⟩ := by interval_cases i <;> rfl
    rw [Vector.getElem_toList, List.getElem_map]
    exact congrArg s.slot place.symm

/-- The slots that the records of a list claim on a link, as a map (R116). -/
theorem getLsbD_heldMap_foldl (l : List Hold) (fits : ∀ h ∈ l, h.start + h.width ≤ 64) (m : SlotMap) (k : Nat) :
    (l.foldl (fun m h => m ||| windowMask h.start h.width) m).getLsbD k = true ↔
      m.getLsbD k = true ∨ ∃ h ∈ l, h.start ≤ k ∧ k < h.start + h.width := by
  induction l generalizing m with
  | nil => simp
  | cons h l ih =>
    obtain ⟨first, fits⟩ := List.forall_mem_cons.1 fits
    rw [List.foldl_cons, ih fits, BitVec.getLsbD_or, Bool.or_eq_true, windowMask_getLsbD _ _ _ first, decide_eq_true_eq,
      or_assoc, List.exists_mem_cons_iff]

/-- The slots claimed of a link (R116). -/
theorem heldMap_getLsbD (fits : ∀ h ∈ s.hu.holds, h.start + h.width ≤ 64) (link : LinkKey) (k : Nat) :
    (s.heldMap link).getLsbD k = true ↔ ∃ h ∈ s.hu.holds, link ∈ h.links ∧ h.start ≤ k ∧ k < h.start + h.width := by
  unfold State.heldMap State.holdsOn
  rw [getLsbD_heldMap_foldl _ fun h mem => fits h (List.mem_filter.1 mem).1]
  simp only [BitVec.ofNat_eq_ofNat, BitVec.getLsbD_zero, Bool.false_eq_true, false_or, List.mem_filter, List.contains_iff_mem,
    and_assoc]

/-- The answer for a slot that holds the number (R116). -/
theorem holdAnswer_found {n : BitVec 8} {i : Fin 8} (numbered : (s.slot i).number = some n)
    (only : ∀ j : Fin 8, (s.slot j).number = some n → j = i) (tag : Tag) : s.holdAnswer tag n =
      ⟨.query .ownHold, tag, .ok, .none, false,
        .ownHold i.val (s.slot i) (s.slotRecord (s.slot i)) (slotTimerMs (s.slot i) (s.slotRecord (s.slot i)))⟩ := by
  unfold State.holdAnswer
  rw [State.findSlot_eq_some numbered only]
  rfl

end State

/-- The timer of a slot in milliseconds, either way within one (R116, log 6). -/
theorem slotTimerMs_live (sub : Substate) (n : BitVec 8) (t : Tag) (h : Hold) :
    ((∃ commit, sub = .pending commit) → slotTimerMs (.live sub n t) (some h) = none) ∧
    (∀ commit e, sub = .announced e commit → ∃ m, slotTimerMs (.live sub n t) (some h) = some m ∧
      (m = e / 1000 ∨ (m = e / 1000 + 1 ∧ e % 1000 ≠ 0))) ∧
    (∀ l, (∀ commit, sub ≠ .pending commit) → (∀ commit e, sub ≠ .announced e commit) → h.lifetime = some l →
      ∃ m, slotTimerMs (.live sub n t) (some h) = some m ∧ (m = l / 1000 ∨ (m = l / 1000 + 1 ∧ l % 1000 ≠ 0))) := by
  refine ⟨?_, ?_, fun l pending announced life => ⟨reportMs l, ?_, reportMs_cases l⟩⟩
  · rintro ⟨commit, rfl⟩
    rfl
  · rintro commit e rfl
    exact ⟨reportMs e, rfl, reportMs_cases e⟩
  · have lived : ((some h).bind Hold.lifetime).map reportMs = some (reportMs l) := by
      rw [Option.bind_some, life]
      rfl
    cases sub with
    | pending c => exact absurd rfl (pending c)
    | announced e c => exact absurd rfl (announced c e)
    | held => exact lived
    | committing c => exact lived
    | committed => exact lived

open State

/-- Settles O50. -/
theorem holdsAreRead : Obligations.HoldsAreRead := by
  unfold Obligations.HoldsAreRead
  have slot (s : State) : s.accepted.slot = s.slot := rfl
  refine ⟨fun tag s takes unjoined => ?_, fun tag s takes joined => ?_, fun tag n s takes joined => ⟨fun absent => ?_,
    fun i numbered only => ⟨fun dead => ?_, fun sub t h live stored origin number ok => ?_⟩⟩,
    fun tag node port s takes joined => ⟨fun bad => ?_, fun low high fits blocks inBand => ?_⟩⟩
  · rw [exec_taken (c := .poll tag) rfl takes nofun, State.answered_eq]
    exact congrArg _ (if_neg (show ¬s.accepted.sc.station.joined = true by
      rw [show s.accepted.sc.station.joined = false from unjoined]; nofun))
  · rw [exec_taken (c := .poll tag) rfl takes nofun, State.answered_eq]
    have listed {f : Fin 8 → Option (BitVec 8 × HoldOutcome × Tag)} (is : ∀ i, Slot.pollItem (s.slot i) = f i) :
        s.hu.slots.toList.filterMap Slot.pollItem = allSlots.filterMap f := by
      rw [slots_toList, List.filterMap_map]
      exact congrArg (fun f => List.filterMap f allSlots) (funext is)
    have polled {f : Slot → Slot} (is : ∀ x, Slot.polled x = f x) : s.hu.slots.map Slot.polled = s.hu.slots.map f :=
      congrArg (fun f => s.hu.slots.map f) (funext is)
    rw [← listed (fun i => by cases s.slot i <;> rfl), ← polled (fun x => by cases x <;> rfl)]
    exact congrArg _ (if_pos (show s.accepted.sc.station.joined = true from joined))
  · rw [exec_query (c := .queryOwnHold tag n) rfl nofun takes joined]
    refine congrArg (fun c => Host.Outcome.next (s.answered c)) ?_
    unfold State.holdAnswer
    rw [State.findSlot_eq_none (s := s.accepted) absent]
    rfl
  · rw [exec_query (c := .queryOwnHold tag n) rfl nofun takes joined,
      holdAnswer_found (s := s.accepted) numbered only, slot]
    refine congrArg (fun i => Host.Outcome.next (s.answered ⟨.query .ownHold, tag, .ok, .none, false, i⟩)) ?_
    cases there : s.slot i with
    | live sub n t =>
      rw [there] at dead
      cases dead
    | _ => rfl
  · have found : s.ownHold n = some h :=
      (Table.lookup_eq_some ok.sorted).2 ⟨stored, by rw [Hold.code, origin, number]⟩
    refine ⟨slotTimerMs (.live sub n t) (some h), ?_, slotTimerMs_live sub n t h⟩
    rw [exec_query (c := .queryOwnHold tag n) rfl nofun takes joined,
      holdAnswer_found (s := s.accepted) numbered only, slot, live,
      show s.accepted.slotRecord (.live sub n t) = some h from found]
  · rw [exec_query (c := .queryOwnHoldLink tag node port) rfl nofun takes joined]
    refine congrArg (fun c => Host.Outcome.next (s.answered c)) (if_pos ((badKey_iff _).2 ?_))
    show node.toNat = 0 ∨ node.toNat = 65535 ∨ 15 < port.toNat
    rw [node_eq_iff node (by decide), node_eq_iff node (by decide)]
    exact bad
  · have good : ¬badKey (readKey node port) = true := by
      rw [badKey_iff]
      show ¬(node.toNat = 0 ∨ node.toNat = 65535 ∨ 15 < port.toNat)
      rw [node_eq_iff node (by decide), node_eq_iff node (by decide)]
      rintro (is | is | is)
      exacts [low is, high is, absurd is (Nat.not_lt.2 fits)]
    refine ⟨s.blockMask (readKey node port), s.heldMap (readKey node port), ?_, fun b stored key => ?_, fun absent => ?_,
      fun k => heldMap_getLsbD inBand _ k⟩
    · rw [exec_query (c := .queryOwnHoldLink tag node port) rfl nofun takes joined, List.countP_eq_length_filter]
      exact congrArg (fun c => Host.Outcome.next (s.answered c)) (if_neg good)
    · rw [← State.blockMask_of_mem blocks stored, key]
      rfl
    · exact State.blockMask_of_absent blocks (fits.trans_lt (by decide)) absent

end Sys2Proof.Machine

namespace Sys2Proof.Machine

/-! PATH and ABORT (R118 to R121, R137, R138, R189). -/

theorem readFit_isNone_iff (b : Byte) : (readFit b).isNone = true ↔ 2 < b.toNat := by
  have code (n : Nat) (lt : n < 256) : b = BitVec.ofNat 8 n ↔ b.toNat = n := by
    rw [← BitVec.toNat_inj, BitVec.toNat_ofNat, Nat.mod_eq_of_lt lt]
  have zero : b = 0 ↔ b.toNat = 0 := code 0 (by decide)
  have one : b = 1 ↔ b.toNat = 1 := code 1 (by decide)
  have two : b = 2 ↔ b.toNat = 2 := code 2 (by decide)
  unfold readFit
  split
  · rename_i is
    have := zero.1 is
    simp; omega
  · split
    · rename_i is
      have := one.1 is
      simp; omega
    · split
      · rename_i is
        have := two.1 is
        simp; omega
      · rename_i not0 not1 not2
        have := mt zero.2 not0
        have := mt one.2 not1
        have := mt two.2 not2
        simp; omega

/-- The fit policy of a request that is not refused (R189). -/
theorem readFit_getD {b : Byte} (valid : ¬2 < b.toNat) :
    (readFit b).getD .first = if b = 0#8 then .first else if b = 1#8 then .last else .best := by
  have known : (readFit b).isNone = false := Bool.eq_false_of_not_eq_true (mt (readFit_isNone_iff b).1 valid)
  unfold readFit at known ⊢
  split
  · rename_i is
    exact (if_pos is).symm
  · rename_i not0
    rw [if_neg not0] at known
    refine Eq.trans ?_ (if_neg not0).symm
    split
    · rename_i is
      exact (if_pos is).symm
    · rename_i not1
      rw [if_neg not1] at known
      refine Eq.trans ?_ (if_neg not1).symm
      split
      · rfl
      · rename_i not2
        rw [if_neg not2] at known
        cases known

theorem badNode_iff (n : Nat) : badNode n = true ↔ n = 0 ∨ n = 65535 := by
  unfold badNode
  simp

/-- What R119 refuses. -/
theorem PathBody_refused_iff (b : PathBody) : b.refused = true ↔
    (b.source = 0#16 ∨ b.source = 0xFFFF#16 ∨ b.destination = 0#16 ∨ b.destination = 0xFFFF#16 ∨
      b.source = b.destination ∨ b.width = 0#8 ∨ 8 < b.width.toNat ∨ 2 < b.fitPolicy.toNat ∨ 63 < b.readLo ∨ 63 < b.readHi ∨
      b.readHi + 1 < b.readLo + b.width.toNat ∨ b.maxHops = 0#8 ∨ 3 < b.priority.toNat ∨ b.readDmax < b.readDmin ∨
      (∃ n ∈ b.readNodes, n = 0 ∨ n = 65535) ∨ (∃ k ∈ b.readKeys, k.node = 0 ∨ k.node = 65535 ∨ 15 < k.port) ∨
      b.source.toNat ∈ b.readNodes ∨ b.destination.toNat ∈ b.readNodes) := by
  have zero (x : Byte) : x.toNat = 0 ↔ x = 0#8 := by rw [← BitVec.toNat_inj]; rfl
  unfold PathBody.refused
  simp only [Bool.or_eq_true, badNode_iff, readFit_isNone_iff, decide_eq_true_eq, beq_iff_eq, List.any_eq_true, badKey_iff,
    List.contains_iff_mem, State.node_eq_iff _ (by decide : 0 < 65536), State.node_eq_iff _ (by decide : 65535 < 65536), zero,
    or_assoc]

namespace State

variable {s : State}

theorem exec_path (takes : s.takes) (room : s.psu.queue.length < 4)
    (station : s.sc.station = .operating ∨ s.sc.station = .muted) (tag : Tag) (b : PathBody) :
    exec (.path tag b) s = .next (if b.refused then s.answered ⟨.path, tag, .refused, .range, false, .none⟩
      else State.accepted { s with psu.queue := s.psu.queue ++ [b.request tag] }) := by
  rw [exec_taken (c := .path tag b) rfl takes fun _ => room]
  have joined : ¬(s.sc.station ≠ .operating ∧ s.sc.station ≠ .muted) := fun ⟨other, other'⟩ => station.elim other other'
  refine congrArg _ ((if_neg (c := s.accepted.sc.station ≠ .operating ∧ s.accepted.sc.station ≠ .muted) joined).trans ?_)
  rw [State.answered_eq]
  rfl

/-- The queue that ABORT searches, behind the request in flight, holds its request (R137). -/
theorem abortQueued_found {tag sought : Tag} {kept before after : List PathRequest} {r : PathRequest}
    (skipped : ∀ x ∈ before, x.tag ≠ sought) (here : r.tag = sought) :
    s.accepted.abortQueued tag sought kept (before ++ r :: after) =
      State.answered ⟨.abort, tag, .ok, .none, false, .none⟩ { s with
        psu.queue := kept ++ (before ++ after)
        clp.completions := s.clp.completions ++ [⟨.path, r.tag, .aborted, .none, r.clamped, .aborted 0⟩]
        clp.reservations := s.clp.reservations - 1 } := by
  unfold State.abortQueued
  rw [takeTagged_eq_some skipped here]
  rfl

theorem abortQueued_absent {tag sought : Tag} {kept queued : List PathRequest} (absent : ∀ x ∈ queued, x.tag ≠ sought) :
    s.accepted.abortQueued tag sought kept queued = s.answered ⟨.abort, tag, .notFound, .none, false, .none⟩ := by
  unfold State.abortQueued
  rw [takeTagged_eq_none absent, State.answered_eq]
  rfl

/-- A search in flight that ABORT passes over (R137). -/
theorem ownAbort_passed {c : Context} {head : PathRequest} {rest : List PathRequest} {tag sought : Tag}
    (context : s.psu.context = some c) (queue : s.psu.queue = head :: rest)
    (passed : head.tag ≠ sought ∨ c.abortTag ≠ none) :
    s.ownAbort tag sought = s.abortQueued tag sought [head] rest := by
  unfold State.ownAbort
  rw [context, queue]
  exact if_neg fun ⟨tagged, unmarked⟩ => passed.elim (· tagged) (· unmarked)

theorem ownAbort_idle {tag sought : Tag} (context : s.psu.context = none) :
    s.ownAbort tag sought = s.abortQueued tag sought [] s.psu.queue := by
  unfold State.ownAbort
  rw [context]

/-- A marked search ends (R138). -/
theorem abortSearch_marked {c : Context} {tag : Tag} (marked : c.abortTag = some tag) : s.abortSearch c =
    s.searchOver [⟨.path, c.request.tag, .aborted, .none, c.request.clamped, .aborted c.passes⟩,
      ⟨.abort, tag, .ok, .none, false, .none⟩] := by
  unfold State.abortSearch
  rw [marked, completeAbort_eq]
  unfold State.endSearch State.post State.searchOver
  rw [Option.map_some, Option.toList_some, Option.toList_some, List.append_assoc, Nat.sub_sub]
  rfl

theorem searchStep_marked {c : Context} (context : s.psu.context = some c) {tag : Tag} (marked : c.abortTag = some tag)
    (phase : SearchPhase) (act : Context → State → State) : s.searchStep phase act = s.abortSearch c := by
  unfold State.searchStep
  rw [context]
  exact if_pos (by rw [marked]; rfl)

end State

open State

/-- Settles O54. -/
theorem pathRequestsQueueAndAbort : Obligations.PathRequestsQueueAndAbort := by
  unfold Obligations.PathRequestsQueueAndAbort
  refine ⟨?_, fun tag sought s takes => ⟨?_, ?_, ?_⟩, fun command c tag s running context marked step => ?_,
    fun s running unmarked => ?_⟩
  · rintro tag b _ _ _ _ _ _ bad q s takes room station rfl rfl rfl rfl rfl rfl is rfl
    rw [exec_path takes room station]
    have refused : b.refused = true ↔ bad := (PathBody_refused_iff b).trans (by rw [is]; rfl)
    refine ⟨fun h => by rw [if_pos (refused.2 h)], fun h => ?_⟩
    have fit := readFit_getD (b := b.fitPolicy) fun high => h (by rw [is]; simp only [high, true_or, or_true])
    have clamped : b.clamped = decide (16 < b.maxHops.toNat ∨ 1048575 < b.budget.toNat ∨ b.dmin.toInt < -8388607 ∨
        8388607 < b.dmax.toInt) := by
      rw [Bool.eq_iff_iff]
      unfold PathBody.clamped
      simp only [Bool.or_eq_true, decide_eq_true_eq, or_assoc]
      rfl
    rw [if_neg fun h' => h (refused.1 h'), ← fit, ← clamped]
    rfl
  · rintro c r rest context queue tagged unmarked
    rw [exec_taken (c := .abort tag sought) rfl takes nofun]
    show Host.Outcome.next (s.accepted.ownAbort tag sought) = _
    unfold State.ownAbort
    rw [show s.accepted.psu.context = some c from context, show s.accepted.psu.queue = r :: rest from queue]
    dsimp only
    rw [if_pos ⟨tagged, unmarked⟩]
    rfl
  · rintro before r after queue tagged search
    rw [exec_taken (c := .abort tag sought) rfl takes nofun]
    refine congrArg _ (?_ : s.accepted.ownAbort tag sought = _)
    rcases search with ⟨idle, absent⟩ | ⟨c, head, skipped, context, rfl, passed, absent⟩
    · rw [ownAbort_idle (s := s.accepted) idle, show s.accepted.psu.queue = before ++ r :: after from queue,
        abortQueued_found absent tagged]
      rfl
    · exact (ownAbort_passed (s := s.accepted) context queue passed).trans (abortQueued_found absent tagged)
  · intro search
    rw [exec_taken (c := .abort tag sought) rfl takes nofun]
    refine congrArg _ (?_ : s.accepted.ownAbort tag sought = _)
    rcases search with ⟨idle, absent⟩ | ⟨c, head, rest, context, queue, passed, absent⟩
    · exact (ownAbort_idle (s := s.accepted) idle).trans (abortQueued_absent absent)
    · rw [ownAbort_passed (s := s.accepted) context queue passed, abortQueued_absent absent]
  · rw [← abortSearch_marked marked]
    rcases step with rfl | rfl | rfl | rfl
    · rw [exec_event (c := .searchAbortEnd) rfl running]
      refine congrArg _ ?_
      unfold State.endMarked
      rw [show State.psu { s with events := s.events + 1 } = s.psu from rfl, context]
      exact if_pos (by rw [marked]; rfl)
    all_goals
      refine (exec_event rfl running).trans (congrArg _ ?_)
      exact searchStep_marked (s := { s with events := s.events + 1 }) context marked _ _
  · rw [exec_event (c := .searchAbortEnd) rfl running]
    refine congrArg _ ?_
    unfold State.endMarked
    split
    · rename_i c context
      rw [unmarked c context]
      rfl
    · rfl

end Sys2Proof.Machine

namespace Sys2Proof.Machine

/-! The start of a search and of a pass (R122, R123, R127). -/

theorem profileAt_eq (profiles : Vector Profile 16) {p : Nat} (h : p < 16) : profileAt profiles p = profiles[p] := by
  simp [profileAt, Vector.getD, h]

namespace State

variable {s : State}

theorem knows_iff {n : Nat} : s.knows n = true ↔ ∃ x ∈ s.tv.nodes, x.id = n := Table.lookup_isSome

theorem knows_false {n : Nat} (absent : ∀ x ∈ s.tv.nodes, x.id ≠ n) : s.knows n = false :=
  Bool.eq_false_of_not_eq_true fun known => (knows_iff.1 known).elim fun x ⟨mem, same⟩ => absent x mem same

theorem endSearch_eq (done : Completion) : s.endSearch done = s.searchOver [done] := rfl

theorem endNoPath_eq {c : Context} {moved : Bool} (is : (s.tv.counter != c.startCounter) = moved) (cause : Cause) :
    s.endNoPath c cause = s.searchOver [⟨.path, c.request.tag, .noPath, cause, c.request.clamped,
      .noPath ⟨c.anyPruned, moved, s.tv.viewIncomplete, s.lac.isolated, s.hu.overflow, false⟩ c.passes⟩] := by
  rw [← is]
  rfl

/-- A step of a search that is not marked, where it is the next one (R126). -/
theorem exec_searchStep {c : Instr} {phase : SearchPhase} {act : Context → State → State}
    (work : eventWork c = some (searchStep phase act)) (running : s.resetHeld = false) {x : Context}
    (context : s.psu.context = some x) (unmarked : x.abortTag = none) (next : x.phase = phase) :
    exec c s = .next (act x { s with events := s.events + 1 }) := by
  rw [exec_event work running]
  refine congrArg _ ?_
  unfold State.searchStep
  rw [show State.psu { s with events := s.events + 1 } = s.psu from rfl, context]
  exact (if_neg (by rw [unmarked]; nofun)).trans (if_pos next)

/-- The pass that begins where the source has a record (R127). -/
theorem startPass_known {c : Context} {x : NodeRecord}
    (found : Table.lookup NodeRecord.id c.request.source s.tv.nodes = some x) : s.startPass c =
    if c.request.budget < (profileAt c.snapshot x.profile).effAdd then c.clearPass.swept
    else { c.clearPass with frontier := [⟨c.request.source, 0, (profileAt c.snapshot x.profile).effAdd, 0, 0, none⟩] } := by
  unfold State.startPass
  dsimp only
  rw [show Table.lookup NodeRecord.id c.clearPass.request.source s.tv.nodes = some x from found]
  rw [← Context.nextWindow_eq_swept]
  rfl

theorem startPass_unknown {c : Context} (absent : ∀ x ∈ s.tv.nodes, x.id ≠ c.request.source) :
    s.startPass c = c.clearPass.swept := by
  unfold State.startPass
  dsimp only
  rw [show Table.lookup NodeRecord.id c.clearPass.request.source s.tv.nodes = none from Table.lookup_eq_none.2 absent]
  exact Context.nextWindow_eq_swept _

end State

/-- The sweep sets the phase of the search. -/
theorem Context.swept_phase (c : Context) (phase : SearchPhase) : Context.swept { c with phase := phase } = c.swept := rfl

open State

/-- Settles O55. -/
theorem searchesAndPassesStart : Obligations.SearchesAndPassesStart := by
  unfold Obligations.SearchesAndPassesStart
  refine ⟨fun r rest s running idle queue => ?_, fun s running busy => ?_,
    fun c cleared s running context unmarked next form is => ?_⟩
  · have started : exec .searchStart s = .next (if s.knows r.source && s.knows r.destination then
        { s with events := s.events + 1, psu.context := some (s.newContext r) }
        else State.endNoPath (s.newContext r) .unknownEnd { s with events := s.events + 1 }) := by
      rw [exec_event (c := .searchStart) rfl running]
      refine congrArg _ ?_
      unfold State.startSearch
      rw [show State.psu { s with events := s.events + 1 } = s.psu from rfl, idle, queue]
      rfl
    have first : (if r.fit = .last then r.hi + 1 - r.width else r.lo) = r.firstWindow := by
      unfold PathRequest.firstWindow
      cases r.fit <;> rfl
    rw [started]
    refine ⟨fun source destination => ?_, fun absent => ?_⟩
    · rw [knows_iff.2 source, knows_iff.2 destination, first]
      rfl
    · have unknown : (s.knows r.source && s.knows r.destination) = false := by
        rcases absent with absent | absent
        · rw [knows_false absent, Bool.false_and]
        · rw [knows_false absent, Bool.and_false]
      rw [unknown, if_neg Bool.false_ne_true]
      exact congrArg _ (endNoPath_eq (s := { s with events := s.events + 1 }) (c := s.newContext r) (bne_self_eq_false _) _)
  · rw [exec_event (c := .searchStart) rfl running]
    refine congrArg _ ?_
    unfold State.startSearch
    split
    · rename_i r rest idle queue
      rcases busy with context | empty
      · exact absurd idle context
      · rw [show s.psu.queue = r :: rest from queue] at empty
        cases empty
    · rfl
  · have began : exec .passStart s = .next { s with events := s.events + 1, psu.context := some (s.startPass c) } :=
      exec_searchStep (c := .passStart) rfl running context unmarked next
    have clear : c.clearPass = { cleared with phase := .selecting } := by rw [is]; rfl
    have swept : c.clearPass.swept = cleared.swept := by rw [clear, Context.swept_phase]
    rw [began]
    refine ⟨fun x stored id low noise noise_eq => ?_, fun absent => ?_⟩
    · have found : Table.lookup NodeRecord.id c.request.source s.tv.nodes = some x :=
        (Table.lookup_eq_some form.nodesSorted).2 ⟨stored, id⟩
      have penalty : (profileAt c.snapshot x.profile).effAdd = noise := by
        rw [noise_eq, profileAt_eq _ low]
        rfl
      rw [startPass_known found, penalty, swept, clear]
      exact ⟨fun fits => by rw [if_neg (Nat.not_lt.2 fits)], fun above => by rw [if_pos above]⟩
    · rw [startPass_unknown absent, swept]

end Sys2Proof.Machine

namespace Sys2Proof.Machine

/-! The completion of a search (R140 to R144, R92). -/

theorem allSlots_getElem {i : Nat} (lt : i < 8) : allSlots[i]'lt = ⟨i, lt⟩ := by interval_cases i <;> rfl

namespace State

variable {s : State}

/-! ### The slot and the number of a new hold (R90, R92) -/

theorem freeSlot_eq_none (full : ∀ i : Fin 8, s.slot i ≠ .free) : s.freeSlot = none :=
  List.find?_eq_none.2 fun i _ => by simpa using full i

theorem freeSlot_eq_some {i : Fin 8} (free : s.slot i = .free) (least : ∀ j : Fin 8, j < i → s.slot j ≠ .free) :
    s.freeSlot = some i := by
  unfold State.freeSlot
  rw [List.find?_eq_some_iff_getElem]
  refine ⟨by simpa using free, i.val, i.isLt, allSlots_getElem i.isLt, fun j lt => ?_⟩
  refine (congrArg (fun i => !(s.slot i == Slot.free)) (allSlots_getElem (lt.trans i.isLt))).trans ?_
  simpa using least ⟨j, lt.trans i.isLt⟩ lt

theorem freeNumber_eq {n : BitVec 8} {k fuel : Nat} (enough : k < fuel)
    (unused : ∀ j : Fin 8, (s.slot j).number ≠ some (n + BitVec.ofNat 8 k))
    (used : ∀ m, m < k → ∃ j : Fin 8, (s.slot j).number = some (n + BitVec.ofNat 8 m)) :
    s.freeNumber fuel n = n + BitVec.ofNat 8 k := by
  induction k generalizing n fuel with
  | zero =>
    obtain ⟨fuel, rfl⟩ := Nat.exists_eq_succ_of_ne_zero (Nat.ne_of_gt enough)
    have zero : n + BitVec.ofNat 8 0 = n := BitVec.add_zero n
    rw [zero] at unused ⊢
    unfold State.freeNumber
    rw [State.findSlot_eq_none unused]
    rfl
  | succ k ih =>
    obtain ⟨fuel, rfl⟩ := Nat.exists_eq_succ_of_ne_zero (Nat.ne_of_gt (Nat.zero_lt_of_lt enough))
    have next (m : Nat) : n + BitVec.ofNat 8 (m + 1) = n + 1 + BitVec.ofNat 8 m := by
      rw [Nat.add_comm m 1, BitVec.ofNat_add, ← BitVec.add_assoc]
      rfl
    obtain ⟨j, number⟩ := used 0 (Nat.succ_pos k)
    have found : (s.findSlot n).isSome = true := by
      refine List.find?_isSome.2 ⟨j, mem_allSlots j, ?_⟩
      rw [beq_iff_eq, number, show n + BitVec.ofNat 8 0 = n from BitVec.add_zero n]
    rw [next] at unused ⊢
    unfold State.freeNumber
    rw [if_pos found]
    refine ih (Nat.lt_of_succ_lt_succ enough) unused fun m lt => ?_
    rw [← next]
    exact used (m + 1) (Nat.succ_lt_succ lt)

theorem searchOver_makeDue (p : Fin 10) (k : FrameKind) (c : Fin 3) (done : List Completion) :
    (s.makeDue p k c).searchOver done = (s.searchOver done).makeDue p k c := by
  rw [State.makeDue_eq, State.makeDue_eq]
  rfl

/-! ### The completion of a search -/

/-- A link of the path stands (R141). -/
theorem linkStands_iff (sorted : Table.Sorted LinkRecord.code s.tv.links) (window width : Nat) (x : LinkKey × Nat) :
    s.linkStands window width x = true ↔
      ∃ l ∈ s.tv.links, l.key = x.1 ∧ l.toNode = x.2 ∧ l.verified = true ∧ s.usable l window width = true := by
  unfold State.linkStands
  constructor
  · intro h
    split at h
    · rename_i l found
      simp only [Bool.and_eq_true, beq_iff_eq, and_assoc] at h
      exact ⟨l, ((Table.lookup_eq_some sorted).1 found).1, h⟩
    · cases h
  · rintro ⟨l, stored, key, toNode, verified, usable⟩
    have found : Table.lookup LinkRecord.code x.1.code s.tv.links = some l :=
      (Table.lookup_eq_some sorted).2 ⟨stored, by rw [← key]; rfl⟩
    rw [found]
    simp only [Bool.and_eq_true, beq_iff_eq]
    exact ⟨⟨⟨key, toNode⟩, verified⟩, usable⟩

/-- A completed search, by its result (R140 to R143). -/
theorem completeSearch_result {c : Context} {r : PassResult} (result : c.bestResult = some r) : s.completeSearch c =
    if r.path.all (s.linkStands r.window c.request.width) then
      if c.request.hold then s.endHeld c r else s.endWith c r .found .none (s.pathFlags c r.pruned false) 0
    else s.endWith c r .stale .none (s.pathFlags c r.pruned false) 0 := by
  unfold State.completeSearch
  rw [result]

theorem endHeld_muted {c : Context} {r : PassResult} (muted : s.sc.station = .muted) :
    s.endHeld c r = s.endWith c r .foundUnheld .muted (s.pathFlags c r.pruned false) 0 := if_pos muted

theorem endHeld_full {c : Context} {r : PassResult} (running : s.sc.station ≠ .muted) (full : s.freeSlot = none) :
    s.endHeld c r = s.endWith c r .foundUnheld .slotsFull (s.pathFlags c r.pruned false) 0 := by
  unfold State.endHeld
  dsimp only
  rw [if_neg running, full]

theorem endHeld_created {c : Context} {r : PassResult} {i : Fin 8} (running : s.sc.station ≠ .muted) (free : s.freeSlot = some i) :
    s.endHeld c r = (s.createHold i c.request.tag c.request.priority r.window c.request.width (r.path.map Prod.fst)).endWith c r
      .found .none { s.pathFlags c r.pruned false with created := true } s.nextNumber := by
  unfold State.endHeld
  dsimp only
  rw [if_neg running, free]

end State

open State

/-- Settles O57. -/
theorem searchesComplete : Obligations.SearchesComplete := by
  unfold Obligations.SearchesComplete
  intro c u s running context unmarked next form is
  have ran : exec .searchCompletion s = .next (u.completeSearch c) :=
    is ▸ exec_searchStep (c := .searchCompletion) rfl running context unmarked next
  rw [ran]
  refine ⟨fun none => ?_, fun r stands done result stands_eq done_eq => ?_⟩
  · unfold State.completeSearch
    rw [none, is]
    rfl
  · have all : r.path.all (u.linkStands r.window c.request.width) = true ↔ stands := by
      rw [stands_eq, List.all_eq_true, is]
      exact forall_congr' fun x => imp_congr_right fun _ =>
        linkStands_iff (s := { s with events := s.events + 1 }) form.linksSorted _ _ _
    have ends (v : State) (created : Bool) (status : Status) (cause : Cause) (n : BitVec 8) :
        v.endWith c r status cause { u.pathFlags c r.pruned false with created := created } n =
          v.searchOver (done status cause created n) := by
      rw [done_eq, is]
      rfl
    rw [completeSearch_result result]
    refine ⟨fun fallen => ?_, fun holds plain => ?_, fun holds asked muted => ?_, fun holds asked station full => ?_,
      fun i k n holds asked station ok free least number short unused used => ?_⟩
    · rw [if_neg (mt all.1 fallen)]
      exact congrArg _ (ends u false _ _ _)
    · rw [if_pos (all.2 holds), plain, if_neg Bool.false_ne_true]
      exact congrArg _ (ends u false _ _ _)
    · rw [if_pos (all.2 holds), asked, if_pos rfl, endHeld_muted (is ▸ muted)]
      exact congrArg _ (ends u false _ _ _)
    · rw [if_pos (all.2 holds), asked, if_pos rfl, endHeld_full (is ▸ station) (is ▸ freeSlot_eq_none full)]
      exact congrArg _ (ends u false _ _ _)
    · have numbered : u.nextNumber = n := by
        rw [number, is]
        exact freeNumber_eq (s := { s with events := s.events + 1 }) (Nat.lt_succ_of_le short) (number ▸ unused) used
      have slot : u.freeSlot = some i := is ▸ freeSlot_eq_some free least
      rw [if_pos (all.2 holds), asked, if_pos rfl, endHeld_created (is ▸ station) slot, ends, createHold_eq,
        searchOver_makeDue, ← Table.put_eq_insertSorted ok.sorted]
      unfold State.withHold
      rw [numbered, is]
      rfl

end Sys2Proof.Machine

namespace Sys2Proof.Machine

/-! A selection step (R125, R128 to R133). -/

namespace Context

variable {c : Context}

/-- A pass with a result under a policy that takes the first (R123). -/
theorem endPassWith_first (r : PassResult) (fit : c.request.fit ≠ .best) :
    c.endPassWith r = { c with bestResult := some r, phase := .completing } := by
  unfold Context.endPassWith
  split
  · rename_i is
    exact absurd is fit
  · rfl

theorem endPassWith_best (r : PassResult) (fit : c.request.fit = .best) :
    c.endPassWith r = Context.swept { c with bestResult := some (betterResult c.bestResult r) } := by
  unfold Context.endPassWith
  rw [fit]
  exact nextWindow_eq_swept _

end Context

theorem betterResult_eq (old : Option PassResult) (r : PassResult) : betterResult old r =
    match old with
    | none => r
    | some o => if r.cost < o.cost ∨ (r.cost = o.cost ∧ r.noise < o.noise) then r else o := by
  cases old with
  | none => rfl
  | some o =>
    unfold betterResult
    dsimp only
    by_cases less : r.cost < o.cost
    · rw [if_pos less, if_pos (.inl less)]
    · by_cases tie : r.cost = o.cost ∧ r.noise < o.noise
      · rw [if_neg less, if_pos tie, if_pos (.inr tie)]
      · rw [if_neg less, if_neg tie, if_neg (not_or.2 ⟨less, tie⟩)]

namespace State

variable {s : State} {c : Context}

/-- The best arrival ends the pass where it comes before every label of the frontier (R128). -/
theorem select_arrived {b : Label} (best : c.bestArrival = some b) (least : ∀ l ∈ c.frontier, b.better l = true) :
    s.select c = c.endPassWith (c.passResult b) := by
  unfold State.select
  rw [best]
  cases found : leastLabel c.frontier with
  | none => rfl
  | some n => exact if_pos (least n (leastLabel_mem found))

/-- The least label of the frontier is taken where the best arrival does not come before it (R128). -/
theorem select_settle {n : Label} (least : leastLabel c.frontier = some n)
    (first : ∀ b, c.bestArrival = some b → b.better n = false) : s.select c = s.settle n c := by
  unfold State.select
  rw [least]
  cases best : c.bestArrival with
  | none => rfl
  | some b => exact if_neg (by rw [first b best]; nofun)

theorem settle_eq (n : Label) : s.settle n c =
    if 64 ≤ c.tree.length then
      { c with frontier := c.frontier.filter (fun l => l.node != n.node), passPruned := true, anyPruned := true }
    else s.extend n { c with frontier := c.frontier.filter (fun l => l.node != n.node), tree := c.tree ++ [n] } := rfl

theorem skipsLink_iff (n : Label) (l : LinkRecord) (farNode : NodeRecord) : s.skipsLink c n l farNode = true ↔
    (l.verified = false ∨ l.key ∈ c.request.excludedKeys ∨ l.toNode ∈ c.request.excludedNodes ∨
      (∃ x ∈ c.tree, x.node = l.toNode) ∨ l.toNode = c.request.source ∨
      (farNode.transit = false ∧ l.toNode ≠ c.request.destination) ∨
      s.usable l c.window c.request.width = false ∨ c.request.maxHops < n.hops + 1) := by
  unfold State.skipsLink
  simp only [Bool.or_eq_true, Bool.and_eq_true, Bool.not_eq_true', List.contains_iff_mem, List.any_eq_true, beq_iff_eq,
    bne_iff_ne, decide_eq_true_eq, or_assoc]

/-- A link that is not skipped (R130 to R132). -/
theorem extendLink_eq {n : Label} {fromNode farNode : NodeRecord} {l : LinkRecord}
    (found : Table.lookup NodeRecord.id l.toNode s.tv.nodes = some farNode) (taken : s.skipsLink c n l farNode = false) :
    s.extendLink n fromNode c l =
      if c.request.budget < (c.formLabel n fromNode farNode l).noise then c
      else if l.toNode = c.request.destination then c.arrive (c.formLabel n fromNode farNode l)
      else c.reach (c.formLabel n fromNode farNode l) := by
  unfold State.extendLink
  rw [found]
  dsimp only
  rw [taken, if_neg Bool.false_ne_true]

end State

namespace Context

variable {c : Context} {x : Label}

theorem arrive_eq : c.arrive x = if c.request.dmin ≤ x.dispersion ∧ x.dispersion ≤ c.request.dmax ∧
    (∀ b, c.bestArrival = some b → x.better b = true) then { c with bestArrival := some x } else c := by
  unfold Context.arrive
  by_cases out : x.dispersion < c.request.dmin ∨ c.request.dmax < x.dispersion
  · rw [if_pos out, if_neg]
    rintro ⟨low, high, -⟩
    omega
  · rw [if_neg out]
    have inside : c.request.dmin ≤ x.dispersion ∧ x.dispersion ≤ c.request.dmax := by omega
    cases best : c.bestArrival with
    | none => exact (if_pos ⟨inside.1, inside.2, nofun⟩).symm
    | some b =>
      dsimp only
      by_cases better : x.better b = true
      · rw [if_pos better, if_pos ⟨inside.1, inside.2, fun b' is => by cases is; exact better⟩]
      · rw [if_neg better, if_neg fun h => better (h.2.2 b rfl)]

/-- A label of a node that the frontier knows (R132). -/
theorem reach_known (sorted : Table.Sorted Label.node c.frontier) {o : Label} (stored : o ∈ c.frontier)
    (same : o.node = x.node) : c.reach x = if x.better o = true then
      { c with frontier := c.frontier.map (fun y => if y.node = x.node then x else y) } else c := by
  unfold Context.reach
  rw [(Table.lookup_eq_some sorted).2 ⟨stored, same⟩, ← Table.put_eq_map sorted stored same]

theorem reach_room (sorted : Table.Sorted Label.node c.frontier) (new : ∀ o ∈ c.frontier, o.node ≠ x.node)
    (room : c.frontier.length < 32) : c.reach x = { c with frontier := insertSorted Label.node x c.frontier } := by
  unfold Context.reach
  rw [Table.lookup_eq_none.2 new, ← Table.put_eq_insertSorted sorted]
  exact if_pos room

theorem reach_full (sorted : Table.Sorted Label.node c.frontier) (new : ∀ o ∈ c.frontier, o.node ≠ x.node)
    (full : 32 ≤ c.frontier.length) {w : Label} (worst : worstLabel c.frontier = some w) : c.reach x =
      if w.better x = true then { c with passPruned := true, anyPruned := true }
      else { c with
        frontier := insertSorted Label.node x (c.frontier.filter (fun y => y.node != w.node))
        passPruned := true, anyPruned := true } := by
  unfold Context.reach
  rw [Table.lookup_eq_none.2 new, worst]
  refine (if_neg (Nat.not_lt.2 full)).trans ?_
  dsimp only
  rw [Table.put_eq_insertSorted (Table.sorted_erase sorted w.node)]
  rfl

end Context

open State

/-- Settles O56. -/
theorem selectionTakesTheLeast : Obligations.SelectionTakesTheLeast := by
  unfold Obligations.SelectionTakesTheLeast
  refine ⟨Label.better_iff, fun c s running context unmarked next => ?_,
    fun n fromNode farNode c l s form fromIn farIn stored id skips is => ?_⟩
  · have stepped : exec .selectionStep s = .next { s with events := s.events + 1, psu.context := some (s.select c) } :=
      exec_searchStep (c := .selectionStep) rfl running context unmarked next
    rw [stepped]
    refine ⟨fun empty none => ?_, fun b r best least r_eq => ⟨by rw [r_eq]; rfl,
      fun k path first arrival short last head chain source => ?_, fun fit => ?_, fun fit => ?_⟩,
      fun n inside least notBest front front_eq => ?_⟩
    · have swept : s.select c = c.swept := by
        unfold State.select
        rw [empty, none]
        exact Context.nextWindow_eq_swept c
      rw [swept]
    · rw [r_eq]
      unfold Context.passResult
      dsimp only
      rw [arrival]
      exact (rebuildPath_eq c.tree path [] k b.node _ first short last head chain source).trans (List.append_nil _)
    · rw [select_arrived best least, ← r_eq, Context.endPassWith_first r fit]
    · rw [select_arrived best least, ← r_eq, Context.endPassWith_best r fit, betterResult_eq] <;> rfl
    · have taken : leastLabel c.frontier = some n := leastLabel_eq_some inside least
      rw [select_settle taken notBest, settle_eq, ← front_eq]
      refine ⟨fun full => by rw [if_pos full], fun room absent => ?_, fun x known id form room => ?_⟩
      · have none : Table.lookup NodeRecord.id n.node s.tv.nodes = none := Table.lookup_eq_none.2 absent
        rw [if_neg (Nat.not_le.2 room)]
        unfold State.extend
        rw [none]
      · have found : Table.lookup NodeRecord.id n.node s.tv.nodes = some x :=
          (Table.lookup_eq_some form.nodesSorted).2 ⟨known, id⟩
        rw [if_neg (Nat.not_le.2 room)]
        unfold State.extend
        rw [found]
        rfl
  · have found : Table.lookup NodeRecord.id l.toNode s.tv.nodes = some farNode :=
      (Table.lookup_eq_some form.nodesSorted).2 ⟨stored, id⟩
    have skipped := skipsLink_iff (s := s) (c := c) n l farNode
    rw [← is] at skipped
    refine ⟨fun h => ?_, fun h p q x p_eq q_eq x_eq => ?_⟩
    · unfold State.extendLink
      rw [found]
      exact if_pos (skipped.2 h)
    · have label : c.formLabel n fromNode farNode l = x := by
        rw [Vector.getElem?_eq_getElem fromIn, Option.some.injEq] at p_eq
        rw [Vector.getElem?_eq_getElem farIn, Option.some.injEq] at q_eq
        rw [x_eq]
        unfold Context.formLabel
        rw [profileAt_eq _ fromIn, profileAt_eq _ farIn, ← p_eq, ← q_eq]
        by_cases here : l.toNode = c.request.destination
        · simp only [if_pos here]
          rfl
        · simp only [if_neg here]
          rfl
      have node : x.node = l.toNode := by rw [x_eq]
      rw [extendLink_eq found (Bool.eq_false_of_not_eq_true (mt skipped.1 h)), label]
      refine ⟨fun above => if_pos above, fun fits here => ?_, fun fits away sorted => ⟨fun o known same => ?_,
        fun new => ⟨fun room => ?_, fun w inside worst full => ?_⟩⟩⟩
      · rw [if_neg (Nat.not_lt.2 fits), if_pos here, Context.arrive_eq]
      all_goals rw [if_neg (Nat.not_lt.2 fits), if_neg away]
      · rw [Context.reach_known sorted known (same.trans node.symm), node]
      · exact Context.reach_room sorted (node ▸ new) room
      · exact Context.reach_full sorted (node ▸ new) full (worstLabel_eq_some inside worst)

end Sys2Proof.Machine

namespace Sys2Proof.Machine

/-! Contests, lifetimes and RELEASEs (R94, R101, R108, R109). -/

namespace State

variable {s : State}

theorem exec_releaseReceived {origin : BitVec 16} {body : List Byte} (h : s.hears origin body) :
    exec (.releaseReceived origin body) s = .next (s.heard.releaseFrame origin.toNat body) :=
  congrArg _ (State.receiveFrame_heard h .release)

/-- A LIVE own hold without a waiting HOLD COMMIT ends. -/
theorem endHold_untagged (ok : s.HoldsOk) {i : Fin 8} {sub : Substate} {n : BitVec 8} {t : Tag}
    (slot : s.slot i = .live sub n t) (untagged : sub.commitTag = none) (outcome : HoldOutcome) (x : Slot) :
    s.endHold i outcome x = s.ownGone i n x := by
  rw [State.endHold_live _ ok slot, untagged]
  simp

theorem HoldsOk.ownHold (ok : s.HoldsOk) {h : Hold} (stored : h ∈ s.hu.holds) (origin : h.origin = s.ownId) :
    s.ownHold h.number = some h :=
  (Table.lookup_eq_some ok.sorted).2 ⟨stored, by rw [Hold.code, origin]⟩

/-- The contest's end establishes the record (R94). -/
theorem establish_eq (ok : s.HoldsOk) {h : Hold} (stored : h ∈ s.hu.holds) (origin : h.origin = s.ownId) :
    s.establish h.number = { s with
      hu.holds := s.hu.holds.map (fun x => if x.code = h.code
        then { h with established := true, lifetime := some s.holdBits } else x)
      tv.counter := s.tv.counter + 1#32 } := by
  unfold State.establish
  rw [ok.ownHold stored origin]
  dsimp only
  unfold State.putHold
  rw [Table.put_eq_map (x := { h with established := true, lifetime := some s.holdBits }) ok.sorted stored rfl]
  rfl

/-- A peer record's key stands after time has passed, and its record is a peer's. -/
theorem elapse_peer (dt : Nat) {r : Hold} (stored : r ∈ s.hu.holds) (peer : r.own = false) :
    ∃ r' ∈ (s.elapse dt).hu.holds, r'.code = r.code ∧ r'.own = false := by
  refine ⟨if s.suspended r then r else r.after dt, List.mem_map_of_mem stored, ?_, ?_⟩
  · split <;> rfl
  · split
    · exact peer
    · exact peer

theorem peerExpires_own {origin : BitVec 16} {n : Byte} (ok : s.HoldsOk)
    (own : ∀ r ∈ s.hu.holds, r.code = holdCode origin.toNat n → r.own = true) : s.peerExpires origin n = s := by
  unfold State.peerExpires
  split
  · rfl
  · rename_i h found
    obtain ⟨stored, code⟩ := (Table.lookup_eq_some ok.sorted).1 found
    rw [if_pos (own h stored code)]

theorem peerExpires_peer {origin : BitVec 16} {n : Byte} (ok : s.HoldsOk) {r : Hold} {l : Nat} (stored : r ∈ s.hu.holds)
    (code : r.code = holdCode origin.toNat n) (peer : r.own = false) (life : r.lifetime = some l) :
    s.peerExpires origin n = (s.elapse l).peerGone r.code := by
  unfold State.peerExpires
  rw [(Table.lookup_eq_some ok.sorted).2 ⟨stored, code⟩]
  obtain ⟨r', stored', code', peer'⟩ := elapse_peer l stored peer
  dsimp only
  rw [peer, if_neg Bool.false_ne_true, life, Option.getD_some, ← code, ← code']
  exact State.removeHold_peer _ (ok.elapse l) stored' peer'

/-- The lifetime of a hold in HELD or COMMITTED ends (R101). -/
theorem lifetimeExpires_eq {i : Fin 8} {n : BitVec 8} {t : Tag} {l : Nat} (ok : s.HoldsOk)
    (slot : s.slot i = .live .held n t ∨ s.slot i = .live .committed n t) {h : Hold} (stored : h ∈ s.hu.holds)
    (origin : h.origin = s.ownId) (number : h.number = n) (life : h.lifetime = some l) : s.lifetimeExpires i =
      ((s.elapse l).ownGone i n (.closing n t .expired true)).makeDue (holdPlace i) .release 1 := by
  have left : s.lifetimeLeft n = l := by
    unfold State.lifetimeLeft
    rw [← number, ok.ownHold stored origin]
    show h.lifetime.getD 0 = l
    rw [life]
    rfl
  have okL := ok.elapse l
  unfold State.lifetimeExpires
  rcases slot with slot | slot
  · have after : (s.elapse l).slot i = .live .held n t := by rw [State.elapse_slot, slot]; rfl
    rw [slot]
    dsimp only
    unfold State.expireHold
    rw [left, after, ← endHold_untagged okL after rfl .expired]
  · have after : (s.elapse l).slot i = .live .committed n t := by rw [State.elapse_slot, slot]; rfl
    rw [slot]
    dsimp only
    unfold State.expireHold
    rw [left, after, ← endHold_untagged okL after rfl .expired]

end State

open State

/-- Settles O52. -/
theorem timersAndReleasesEndHolds : Obligations.TimersAndReleasesEndHolds := by
  unfold Obligations.TimersAndReleasesEndHolds
  refine ⟨fun origin body u s hears is => ⟨fun ignored => ?_, fun n r one ok stored code => ?_⟩,
    fun origin n s running ok => ⟨fun own => ?_, fun r l stored code peer life => ?_⟩,
    fun i e commit n t h u s running slot u_eq ok stored origin number raised raised_eq => ?_, fun i s running other => ?_,
    fun i n t h l s running ok slot stored origin number life => ?_, fun i s running other => ?_⟩
  · rw [exec_releaseReceived hears, ← is]
    refine congrArg _ ?_
    unfold State.releaseFrame
    split
    · rename_i known
      split
      · rename_i n
        rcases ignored with unknown | long | ⟨n', one, absent⟩
        · rw [is, heard_knows, unknown] at known
          cases known
        · exact absurd rfl long
        · cases one
          exact State.removeHold_absent _ (by rw [is, State.heard_hu]; exact absent)
      · rfl
    · rfl
  · have okU : u.HoldsOk := is ▸ ok.heard
    have hu : u.hu = s.hu := is ▸ s.heard_hu
    have place : r.origin = origin.toNat := (holdCode_inj code).1
    have peer : r.own = false := by
      rw [ok.with.side r stored, place]
      exact beq_false_of_ne hears.2.2.2.2.2.2
    have known : u.knows origin.toNat = true := by
      rw [is, heard_knows, ← place]
      exact ok.known r stored peer
    rw [exec_releaseReceived hears, ← is, one]
    refine congrArg _ ?_
    unfold State.releaseFrame
    rw [if_pos known]
    dsimp only
    rw [← code]
    exact State.removeHold_peer _ okU (hu ▸ stored) peer
  · rw [exec_event (c := .peerLifetimeExpiry origin n) rfl running]
    exact congrArg _ (peerExpires_own (s := { s with events := s.events + 1 }) (ok.of_eq rfl rfl rfl) own)
  · rw [exec_event (c := .peerLifetimeExpiry origin n) rfl running]
    exact congrArg _ (peerExpires_peer (s := { s with events := s.events + 1 }) (ok.of_eq rfl rfl rfl) stored code peer life)
  · have ends : exec (.contestExpiry i) s = .next (u.endContest i) := by
      rw [exec_event (c := .contestExpiry i) rfl running, u_eq]
      refine congrArg _ ?_
      unfold State.contestExpires
      rw [show State.slot { s with events := s.events + 1 } i = _ from slot]
      rfl
    have after : u.slot i = .live (.announced (e + (s.timing.contest * 1000 - e)) commit) n t := by
      rw [u_eq, State.elapse_slot, show State.slot { s with events := s.events + 1 } i = _ from slot]
      rfl
    have established : u.establish n = raised := by
      rw [← number, establish_eq ok stored (by rw [origin, u_eq]; rfl), raised_eq, u_eq]
      rfl
    rw [ends]
    unfold State.endContest
    rw [after]
    refine ⟨fun none => ?_, fun c some => ?_⟩
    · rw [none]
      dsimp only
      rw [established, raised_eq]
      rfl
    · rw [some]
      dsimp only
      rw [established, raised_eq]
      rfl
  · rw [exec_event (c := .contestExpiry i) rfl running]
    refine congrArg _ ?_
    unfold State.contestExpires
    split
    · rename_i e c n t slot
      exact absurd slot (other e c n t)
    · rfl
  · rw [exec_event (c := .holdLifetimeExpiry i) rfl running]
    exact congrArg _ (lifetimeExpires_eq (s := { s with events := s.events + 1 }) (ok.of_eq rfl rfl rfl) slot stored origin
      number life)
  · rw [exec_event (c := .holdLifetimeExpiry i) rfl running]
    refine congrArg _ ?_
    unfold State.lifetimeExpires
    split
    · rename_i n t slot
      exact absurd slot (other n t).1
    · rename_i n t slot
      exact absurd slot (other n t).2
    · rfl

end Sys2Proof.Machine

namespace Sys2Proof.Machine

/-! A failed attempt, from the first to the eighth (R7, R11 to R14). -/

theorem slotOfPlace_holdPlace (i : Fin 8) : slotOfPlace (holdPlace i) = some i := dif_pos i.isLt

namespace State

variable {s u : State} {a : Attempt} {e : Entry}

theorem failsBy_aborted {c : Instr} (fails : s.failsBy a c u) : ∃ n, u = s.attemptAborted a n := by
  rcases fails with ⟨_, n, _, _, is⟩ | ⟨n, _, is, _⟩
  · exact ⟨n, is⟩
  · exact ⟨n, is⟩

theorem settled_of_entry (entry : u.entry a.place = some e) : u.settled a =
    if e.followOn.isSome || e.withdrawn then u.takeFollowOn a.place e
    else if e.attempts < 7 then u.backOff a.place e
    else (u.setEntry a.place none).reportDropped a.place a.kind := by
  unfold State.settled
  rw [entry]

/-- What each owner makes of a report for a hold frame whose slot is in another state (R91, R97). -/
def strays (s : State) (i : Fin 8) (k : FrameKind) : Prop :=
  (k = .announce ∧ ∀ n tag commit, s.slot i ≠ .live (.pending commit) n tag) ∨
  (k = .commit ∧ ∀ n tag commit, s.slot i ≠ .live (.committing commit) n tag) ∨
  (k = .release ∧ ∀ n tag o toEnded, s.slot i ≠ .closing n tag o toEnded)

theorem holdDropped_strays {i : Fin 8} {k : FrameKind} (other : s.strays i k) : s.holdDropped i k = s := by
  unfold State.strays at other
  unfold State.holdDropped
  split
  · rename_i slot
    exact absurd slot (((other.resolve_right (by rintro (⟨is, -⟩ | ⟨is, -⟩) <;> cases is)).2) _ _ _)
  · rename_i slot
    rcases other with ⟨is, -⟩ | ⟨-, other⟩ | ⟨is, -⟩
    · cases is
    · exact absurd slot (other _ _ _)
    · cases is
  · rename_i slot
    rcases other with ⟨is, -⟩ | ⟨is, -⟩ | ⟨-, other⟩
    · cases is
    · cases is
    · exact absurd slot (other _ _ _ _)
  · rename_i slot
    rcases other with ⟨is, -⟩ | ⟨is, -⟩ | ⟨-, other⟩
    · cases is
    · cases is
    · exact absurd slot (other _ _ _ _)
  · rfl

theorem holdDropped_object (i : Fin 8) : s.holdDropped i .object = s := by
  unfold State.holdDropped
  split
  all_goals first | rfl | contradiction

/-- A RELEASE's report gives the slot its after-close state, sent or dropped (R102). -/
theorem holdDropped_release {i : Fin 8} {n : BitVec 8} {t : Tag} {o : HoldOutcome} {toEnded : Bool}
    (slot : s.slot i = .closing n t o toEnded) :
    s.holdDropped i .release = s.setSlot i (if toEnded then .ended n t o else .free) := by
  unfold State.holdDropped
  rw [slot]
  cases toEnded <;> rfl

theorem holdDropped_commit {i : Fin 8} {n : BitVec 8} {t commit : Tag} (slot : s.slot i = .live (.committing commit) n t) :
    s.holdDropped i .commit = (s.post (.plain .holdCommit commit .mediumFailed)).setSlot i (.live .held n t) := by
  unfold State.holdDropped
  rw [slot]

theorem holdDropped_announce {i : Fin 8} {n : BitVec 8} {t : Tag} {commit : Option Tag}
    (slot : s.slot i = .live (.pending commit) n t) :
    s.holdDropped i .announce = s.endHold i .failed (.ended n t .failed) := by
  unfold State.holdDropped
  rw [slot]

theorem reportDropped_hold (i : Fin 8) (k : FrameKind) : s.reportDropped (holdPlace i) k = s.holdDropped i k := by
  unfold State.reportDropped
  rw [slotOfPlace_holdPlace]

theorem reportDropped_object (p : Fin 10) : s.reportDropped p .object = s := by
  unfold State.reportDropped
  split
  · exact holdDropped_object _
  · rfl

/-- The slots in which time runs on stand, but for the contest timer. -/
theorem strays_elapsed {dt : Nat} {i : Fin 8} {k : FrameKind} (slot : u.slot i = (s.slot i).after dt) (other : s.strays i k) :
    u.strays i k := by
  have announce {n tag commit} (is : u.slot i = .live (.pending commit) n tag) : s.slot i = .live (.pending commit) n tag := by
    rw [slot] at is
    cases there : s.slot i with
    | live sub _ _ => cases sub <;> rw [there] at is <;> cases is; rfl
    | _ => rw [there] at is; cases is
  have commit {n tag commit} (is : u.slot i = .live (.committing commit) n tag) :
      s.slot i = .live (.committing commit) n tag := by
    rw [slot] at is
    cases there : s.slot i with
    | live sub _ _ => cases sub <;> rw [there] at is <;> cases is; rfl
    | _ => rw [there] at is; cases is
  have release {n tag o toEnded} (is : u.slot i = .closing n tag o toEnded) : s.slot i = .closing n tag o toEnded := by
    rw [slot] at is
    cases there : s.slot i with
    | live sub _ _ => cases sub <;> rw [there] at is <;> cases is
    | closing _ _ _ _ => rw [there] at is; exact is
    | _ => rw [there] at is; cases is
  refine other.imp ?_ (Or.imp ?_ ?_)
  · exact fun ⟨kind, other⟩ => ⟨kind, fun _ _ _ is => other _ _ _ (announce is)⟩
  · exact fun ⟨kind, other⟩ => ⟨kind, fun _ _ _ is => other _ _ _ (commit is)⟩
  · exact fun ⟨kind, other⟩ => ⟨kind, fun _ _ _ _ is => other _ _ _ _ (release is)⟩

theorem attemptAborted_slot (a : Attempt) (n : Nat) (i : Fin 8) :
    (s.attemptAborted a n).slot i = (s.slot i).after (a.startedAt + (n + 8) - s.now) :=
  State.elapse_slot { s with events := s.events + 1 } _ i

/-- The eighth failure empties the place and is reported (R14). -/
theorem exec_eighth {c : Instr} {v : State} (running : s.resetHeld = false) (on : s.lac.attempt = some a)
    (entry : s.entry a.place = some e) (alone : e.followOn = none) (stands : e.withdrawn = false) (last : e.attempts = 7)
    (fails : s.failsBy a c v) (is : u = { v with lac.due := s.lac.due.set a.place none }) :
    exec c s = .next (u.reportDropped a.place a.kind) := by
  have ended := State.exec_fails running on fails
  obtain ⟨n, rfl⟩ := failsBy_aborted fails
  rw [ended, settled_of_entry (u := s.attemptAborted a n) (e := e) entry, alone, stands, last,
    if_neg (show ¬((none : Option (FrameKind × Fin 3)).isSome || false) = true from nofun), if_neg (Nat.lt_irrefl 7), is]
  rfl

theorem dueCheck_waiting (waits : s.ads.postDropWait = true) : s.dueCheck = s := by
  unfold State.dueCheck
  rw [waits, Bool.or_true, if_pos rfl]

theorem returned_eq (m : ContentMark) : m.returned = if m = .carried then .waiting else m := by cases m <;> rfl

/-- A dropped ADVERT, whose count in ANNOUNCING is yet to be taken (R65, R66). -/
theorem advertDropped_uncounted (other : s.sc.station ≠ .announcing) : s.advertDropped =
    { s with ads.postDropWait := true, ads.entryPresent := false
             ads.mark := if s.ads.mark = .carried then .waiting else s.ads.mark } := by
  unfold State.advertDropped State.countAnnounced
  dsimp only
  rw [if_neg other, dueCheck_waiting rfl, returned_eq]

theorem advertDropped_counted (announcing : s.sc.station = .announcing) (more : s.ads.announceCount ≠ 1) : s.advertDropped =
    { s with ads.postDropWait := true, ads.entryPresent := false, ads.announceCount := s.ads.announceCount + 1
             ads.mark := if s.ads.mark = .carried then .waiting else s.ads.mark } := by
  unfold State.advertDropped State.countAnnounced
  dsimp only
  rw [if_pos announcing, if_neg (fun two => more (Nat.succ.inj two)), dueCheck_waiting rfl, returned_eq]

theorem advertDropped_second (announcing : s.sc.station = .announcing) (one : s.ads.announceCount = 1) : s.advertDropped =
    { s with
      ads.postDropWait := true, ads.entryPresent := false, ads.announceCount := 2
      ads.mark := if s.ads.mark = .carried then .waiting else s.ads.mark
      sc.station := .operating, sc.joinWaiting := none
      clp.completions := s.clp.completions ++
        (s.sc.joinWaiting.map (fun j => (⟨.join, j, .ok, .none, false, .none⟩ : Completion))).toList
      clp.reservations := s.clp.reservations - s.sc.joinWaiting.toList.length } := by
  unfold State.advertDropped State.countAnnounced State.enterOperating
  dsimp only
  rw [if_pos announcing, if_pos (by rw [one]), completeJoin_eq, dueCheck_waiting rfl, returned_eq, one]
  rfl

end State

open State

/-- Settles O39. -/
theorem failedAttemptBacksOff : Obligations.FailedAttemptBacksOff := by
  unfold Obligations.FailedAttemptBacksOff
  refine ⟨fun a e c u s running on entry fails => ?_, firstMismatch_eq_some⟩
  have ended := State.exec_fails running on fails
  obtain ⟨n, rfl⟩ := failsBy_aborted fails
  rw [settled_of_entry (u := s.attemptAborted a n) (e := e) entry] at ended
  rw [ended]
  refine ⟨fun alone stands early r is => ?_, fun alone withdrawn => ?_, fun k cls follows => ?_⟩
  · have quiet : (e.followOn.isSome || e.withdrawn) = false := by rw [alone, stands]; rfl
    rw [quiet, if_neg Bool.false_ne_true, if_pos early, is]
    rfl
  · rw [withdrawn, Bool.or_true, if_pos rfl]
    unfold State.takeFollowOn
    rw [alone]
    rfl
  · rw [follows, Option.isSome_some, Bool.true_or, if_pos rfl]
    unfold State.takeFollowOn
    rw [follows]
    rfl

/-- Settles O40: what each owner does at DROPPED. -/
theorem eighthFailureDropsTheEntry : Obligations.EighthFailureDropsTheEntry := by
  unfold Obligations.EighthFailureDropsTheEntry
  intro a e c u v s running on entry alone stands last fails is
  have dropped := exec_eighth running on entry alone stands last fails is
  obtain ⟨m, rfl⟩ := failsBy_aborted fails
  have slot (i : Fin 8) : u.slot i = (s.slot i).after (a.startedAt + (m + 8) - s.now) := by
    rw [is]
    exact attemptAborted_slot a m i
  have sc : u.sc.station = s.sc.station ∧ u.sc.joinWaiting = s.sc.joinWaiting ∧ u.ads = s.ads ∧ u.clp = s.clp ∧ u.tv = s.tv ∧
      u.ownId = s.ownId := by
    rw [is]
    exact ⟨rfl, rfl, rfl, rfl, rfl, rfl⟩
  obtain ⟨station, waiting, ads, clp, tv, own⟩ := sc
  refine ⟨fun object => ?_, fun place solicit => ?_, fun place advert operating => ?_, fun place advert announcing more => ?_,
    fun place advert announcing one => ?_, fun i place other => ?_, fun i n tag commit place kind live => ?_,
    fun i n tag o toEnded place kind closing => ?_, fun i n tag commit place kind live ok => ?_⟩
  · rw [dropped, object, reportDropped_object]
  · rw [dropped, place, solicit]
    rfl
  · rw [dropped, place, advert]
    refine congrArg _ ((advertDropped_uncounted (by rw [station, operating]; nofun)).trans ?_)
    rw [ads]
  · rw [dropped, place, advert]
    refine congrArg _ ((advertDropped_counted (station.trans announcing) (ads ▸ more)).trans ?_)
    rw [ads]
  · rw [dropped, place, advert]
    refine congrArg _ ((advertDropped_second (station.trans announcing) (ads ▸ one)).trans ?_)
    rw [ads, waiting, clp]
  · rw [dropped, place, reportDropped_hold, holdDropped_strays (strays_elapsed (slot i) other)]
  · rw [dropped, place, kind, reportDropped_hold, holdDropped_commit (by rw [slot, live]; rfl), ← clp]
    rfl
  · rw [dropped, place, kind, reportDropped_hold, holdDropped_release (by rw [slot, closing]; rfl)]
    rfl
  · have okU : u.HoldsOk := by
      rw [is]
      exact State.HoldsOk.of_eq (s := { s with events := s.events + 1 }.elapse _) ((ok.of_eq rfl rfl rfl : State.HoldsOk { s with
        events := s.events + 1 }).elapse _) rfl rfl rfl
    have pending : u.slot i = .live (.pending commit) n tag := by rw [slot, live]; rfl
    rw [dropped, place, kind, reportDropped_hold, holdDropped_announce pending, State.endHold_live _ okU pending, ← own, ← tv,
      ← clp]
    rfl

end Sys2Proof.Machine

namespace Sys2Proof.Machine

/-! SENT for a hold frame or the SOLICIT (R91, R93, R99, R102, R103). -/

theorem Table.erase_put {α : Type} {key : α → Nat} {l : List α} (sorted : Sorted key l) (x : α) :
    erase key (key x) (put key x l) = erase key (key x) l := by
  refine Table.ext (sorted_erase (sorted_put sorted x) _) (sorted_erase sorted _) fun y => ?_
  unfold Table.erase
  rw [List.mem_filter, List.mem_filter, mem_put sorted, bne_iff_ne]
  constructor
  · rintro ⟨rfl | ⟨old, -⟩, other⟩
    · exact absurd rfl other
    · exact ⟨old, other⟩
  · exact fun ⟨old, other⟩ => ⟨.inr ⟨old, other⟩, other⟩

namespace State

variable {s u : State} {a : Attempt} {e : Entry}

theorem holdSent_strays {i : Fin 8} {k : FrameKind} (other : s.strays i k) : s.holdSent i k = s := by
  unfold State.strays at other
  unfold State.holdSent
  split
  · rename_i slot
    exact absurd slot (((other.resolve_right (by rintro (⟨is, -⟩ | ⟨is, -⟩) <;> cases is)).2) _ _ _)
  · rename_i slot
    rcases other with ⟨is, -⟩ | ⟨-, other⟩ | ⟨is, -⟩
    · cases is
    · exact absurd slot (other _ _ _)
    · cases is
  · rename_i slot
    rcases other with ⟨is, -⟩ | ⟨is, -⟩ | ⟨-, other⟩
    · cases is
    · cases is
    · exact absurd slot (other _ _ _ _)
  · rename_i slot
    rcases other with ⟨is, -⟩ | ⟨is, -⟩ | ⟨-, other⟩
    · cases is
    · cases is
    · exact absurd slot (other _ _ _ _)
  · rfl

theorem holdSent_object (i : Fin 8) : s.holdSent i .object = s := by
  unfold State.holdSent
  split
  all_goals first | rfl | contradiction

theorem holdSent_release {i : Fin 8} {n : BitVec 8} {t : Tag} {o : HoldOutcome} {toEnded : Bool}
    (slot : s.slot i = .closing n t o toEnded) :
    s.holdSent i .release = s.setSlot i (if toEnded then .ended n t o else .free) := by
  unfold State.holdSent
  rw [slot]
  cases toEnded <;> rfl

theorem holdSent_announce {i : Fin 8} {n : BitVec 8} {t : Tag} {commit : Option Tag}
    (slot : s.slot i = .live (.pending commit) n t) :
    s.holdSent i .announce = s.setSlot i (.live (.announced 0 commit) n t) := by
  unfold State.holdSent
  rw [slot]

theorem holdSent_commit {i : Fin 8} {n : BitVec 8} {t commit : Tag} (slot : s.slot i = .live (.committing commit) n t) :
    s.holdSent i .commit = s.commitSent i n t commit := by
  unfold State.holdSent
  rw [slot]

theorem reportSent_hold {i : Fin 8} (place : a.place = holdPlace i) (follows : Bool) :
    s.reportSent a follows = s.holdSent i a.kind := by
  unfold State.reportSent
  rw [place, slotOfPlace_holdPlace]

/-- An own record goes whose slot has no HOLD COMMIT waiting, as the tables stand. -/
theorem endHold_found {i : Fin 8} {sub : Substate} {n : BitVec 8} {t : Tag} (slot : s.slot i = .live sub n t)
    (untagged : sub.commitTag = none) {h : Hold} (found : s.ownHold n = some h) (mine : h.own = true) (outcome : HoldOutcome)
    (x : Slot) : s.endHold i outcome x = s.ownGone i n x := by
  have removed : s.removeHold (holdCode s.ownId n) = { s with
      hu.holds := Table.erase Hold.code (holdCode s.ownId n) s.hu.holds, tv.counter := s.tv.counter + 1#32 } := by
    unfold State.removeHold
    rw [show Table.lookup Hold.code (holdCode s.ownId n) s.hu.holds = some h from found]
    exact if_pos mine
  unfold State.endHold
  rw [slot]
  dsimp only [Slot.number]
  rw [removed]
  unfold State.completeCommit
  rw [show State.slot { s with hu.holds := Table.erase Hold.code (holdCode s.ownId n) s.hu.holds
                               tv.counter := s.tv.counter + 1#32 } i = _ from slot]
  dsimp only
  rw [untagged]
  rfl

/-- The state in which a COMMIT's hold stands committed, before the check of R103 (R99). -/
def commitTaken (i : Fin 8) (n : BitVec 8) (t c : Tag) (h : Hold) (s : State) : State :=
  { s with
    hu.holds := Table.put Hold.code h s.hu.holds
    hu.slots := s.hu.slots.set i (.live .committed n t)
    tv.counter := s.tv.counter + 1#32
    clp.completions := s.clp.completions ++ [⟨.holdCommit, c, .ok, .none, false, .none⟩]
    clp.reservations := s.clp.reservations - 1 }

theorem commitSent_eq {i : Fin 8} {n : BitVec 8} {t c : Tag} {h : Hold} (found : s.ownHold n = some h) :
    s.commitSent i n t c =
      (s.commitTaken i n t c { h with committed := true, lifetime := some s.commitBits }).supersede
        { h with committed := true, lifetime := some s.commitBits } := by
  unfold State.commitSent
  rw [found]
  rfl

theorem commitTaken_slot (i : Fin 8) (n : BitVec 8) (t c : Tag) (h : Hold) (j : Fin 8) :
    (s.commitTaken i n t c h).slot j = if j = i then .live .committed n t else s.slot j := slot_setSlot ..

/-- A hold that is lit on every link as it is committed goes at once (R99, R103). -/
theorem supersede_commitTaken (ok : s.HoldsOk) {i : Fin 8} {n : BitVec 8} {t c c' : Tag}
    (slot : s.slot i = .live (.committing c') n t) {h h' : Hold} (found : s.ownHold n = some h)
    (is : h' = { h with committed := true, lifetime := some s.commitBits }) (lit : s.isSuperseded h' = true) :
    (s.commitTaken i n t c h').supersede h' =
      State.ownGone i n (.ended n t .superseded) ((s.commitTaken i n t c h').withdrawObject (holdPlace i)) := by
  obtain ⟨-, mine, number, origin⟩ := ok.with.ownHold found
  have own : h'.own = true := by rw [is]; exact mine
  have numbered : h'.number = n := by rw [is]; exact number
  have code : h'.code = holdCode s.ownId n := by
    rw [is]
    exact ((Table.lookup_eq_some ok.sorted).1 found).2
  have numbers (j : Fin 8) : ((s.commitTaken i n t c h').slot j).number = (s.slot j).number := by
    rw [commitTaken_slot]
    split
    · rename_i same
      rw [same, slot]
      rfl
    · rfl
  have here : (s.commitTaken i n t c h').slot i = .live .committed n t := by rw [commitTaken_slot, if_pos rfl]
  have at_ : (s.commitTaken i n t c h').findSlot h'.number = some i := by
    refine State.findSlot_eq_some (by rw [here, numbered]; rfl) fun j same => ?_
    rw [numbers, numbered] at same
    exact ok.numbers j i (by rw [same]; nofun) (by rw [same, slot]; rfl)
  have committed : (h'.committed && (s.commitTaken i n t c h').isSuperseded h') = true := by
    rw [isSuperseded_congr (s := s) (t := s.commitTaken i n t c h') rfl, lit, is]
    rfl
  have stored : (s.commitTaken i n t c h').ownHold n = some h' := by
    show Table.lookup Hold.code (holdCode s.ownId n) (Table.put Hold.code h' s.hu.holds) = some h'
    rw [← code]
    exact Table.lookup_put_self ok.sorted h'
  unfold State.supersede
  rw [if_pos committed, if_pos own, at_]
  dsimp only
  rw [here]
  dsimp only
  refine endHold_found (sub := .committed) (t := t) (h := h') ?_ rfl ?_ own _ _
  · rw [slot_withdrawObject, here]
  · rw [withdrawObject_eq]
    exact stored

/-- SENT is reported in the state at the end of the frame, with the place settled (R6, R12). -/
theorem exec_sent {c : Instr} {due : Option Entry} (running : s.resetHeld = false) (on : s.lac.attempt = some a)
    (entry : s.entry a.place = some e) (succeeds : succeedsBy a c)
    (next : due = e.followOn.map (fun f => ⟨f.1, f.2, s.events + 1, 0, none, none, false⟩))
    (is : u = { s.attemptOver a (8 * (a.frame.length + 4)) with lac.due := s.lac.due.set a.place due }) :
    exec c s = .next (u.reportSent a e.followOn.isSome) := by
  rw [State.exec_succeeds running on succeeds]
  unfold State.succeedAttempt
  have here : ({ s with events := s.events + 1 }.elapse (a.startedAt + a.bits - s.now)).entry a.place = some e := entry
  rw [here, is, next]
  rfl

end State

/-- A hold is lit exactly when each of its links has a record whose used slots cover its window (R103). -/
theorem State.isSuperseded_iff {s : State} (form : s.ViewForm) {h : Hold} (keys : ∀ k ∈ h.links, k.valid = true)
    (fits : h.start + h.width ≤ 64) : s.isSuperseded h = true ↔ ∀ k ∈ h.links, ∃ l ∈ s.tv.links, l.key = k ∧
      ∀ n, h.start ≤ n → n < h.start + h.width → l.used.getLsbD n = true := by
  have covers (used : SlotMap) : (used &&& windowMask h.start h.width == windowMask h.start h.width) = true ↔
      ∀ n, h.start ≤ n → n < h.start + h.width → used.getLsbD n = true := by
    rw [beq_iff_eq]
    constructor
    · intro same n low high
      have bit := congrArg (fun m : SlotMap => m.getLsbD n) same
      simp only [BitVec.getLsbD_and, windowMask_getLsbD _ _ _ fits, low, high, and_self, decide_true, Bool.and_true] at bit
      exact bit
    · intro all
      refine BitVec.eq_of_getLsbD_eq fun n _ => ?_
      rw [BitVec.getLsbD_and, windowMask_getLsbD _ _ _ fits]
      by_cases inside : h.start ≤ n ∧ n < h.start + h.width
      · rw [all n inside.1 inside.2, Bool.true_and]
      · rw [decide_eq_false inside, Bool.and_false]
  unfold State.isSuperseded
  rw [List.all_eq_true]
  refine forall_congr' fun k => imp_congr_right fun mem => ?_
  have port : k.port < 256 := (LinkKey.valid_port (keys k mem)).trans_lt (by decide)
  cases found : Table.lookup LinkRecord.code k.code s.tv.links with
  | none =>
    refine iff_of_false nofun ?_
    rintro ⟨l, stored, rfl, -⟩
    exact Table.lookup_eq_none.1 found l stored rfl
  | some l =>
    obtain ⟨stored, code⟩ := (Table.lookup_eq_some form.linksSorted).1 found
    have key : l.key = k := LinkKey.code_inj ((form.tables.fromPorts l stored).trans_lt (by decide)) port code
    dsimp only
    rw [covers]
    constructor
    · exact fun all => ⟨l, stored, key, all⟩
    · rintro ⟨l', stored', key', all⟩
      rwa [form.linksSorted.inj stored stored' (show l.key.code = l'.key.code by rw [key, key'])]

open State

/-- Settles O41: what each owner does at SENT. -/
theorem holdFrameSentMovesTheSlot : Obligations.HoldFrameSentMovesTheSlot := by
  unfold Obligations.HoldFrameSentMovesTheSlot
  refine ⟨fun c a e due u s running on entry succeeds next is => ?_, fun h s form keys fits => isSuperseded_iff form keys fits⟩
  have sent := exec_sent running on entry succeeds next is
  have slot (i : Fin 8) : u.slot i = (s.slot i).after (a.startedAt + 8 * (a.frame.length + 4) - s.now) := by
    rw [is]
    exact State.elapse_slot { s with events := s.events + 1 } _ i
  have stands : u.clp = s.clp ∧ u.tv = s.tv ∧ u.ownId = s.ownId ∧ u.commitBits = s.timing.commit * 1000000 := by
    rw [is]
    exact ⟨rfl, rfl, rfl, rfl⟩
  obtain ⟨clp, tv, own, bits⟩ := stands
  refine ⟨fun i place object => ?_, fun place solicit => ?_, fun i n tag commit place kind live => ?_, fun i place other => ?_,
    fun i n tag o toEnded place kind closing => ?_,
    fun i n tag commit h h' place kind live found committed => ⟨fun dark => ?_, fun lit ok => ?_⟩⟩
  · rw [sent, reportSent_hold place, object, holdSent_object]
  · rw [sent]
    unfold State.reportSent
    rw [place, solicit]
    rfl
  · rw [sent, reportSent_hold place, kind, holdSent_announce (by rw [slot, live]; rfl)]
    rfl
  · rw [sent, reportSent_hold place, holdSent_strays (strays_elapsed (slot i) other)]
  · rw [sent, reportSent_hold place, kind, holdSent_release (by rw [slot, closing]; rfl)]
    rfl
  · have committing : u.slot i = .live (.committing commit) n tag := by rw [slot, live]; rfl
    rw [← isSuperseded_congr (s := s) (t := u) (congrArg Tv.links tv)] at dark
    rw [sent, reportSent_hold place, kind, holdSent_commit committing, commitSent_eq found, bits, ← committed, ← tv, ← clp]
    refine congrArg _ (if_neg ?_)
    rw [isSuperseded_congr (s := u) (t := u.commitTaken i n tag commit h') rfl, dark, Bool.and_false]
    nofun
  · have committing : u.slot i = .live (.committing commit) n tag := by rw [slot, live]; rfl
    have okU : u.HoldsOk := by
      rw [is]
      exact State.HoldsOk.of_eq (s := { s with events := s.events + 1 }.elapse _) ((ok.of_eq rfl rfl rfl : State.HoldsOk { s with
        events := s.events + 1 }).elapse _) rfl rfl rfl
    rw [← isSuperseded_congr (s := s) (t := u) (congrArg Tv.links tv)] at lit
    have erased : (Table.put Hold.code h' u.hu.holds).filter (fun x => x.code != holdCode s.ownId n) =
        u.hu.holds.filter (fun x => x.code != holdCode s.ownId n) := by
      have code : h'.code = holdCode s.ownId n := by
        rw [committed, ← own]
        exact ((Table.lookup_eq_some okU.sorted).1 found).2
      rw [← code]
      exact Table.erase_put okU.sorted h'
    have off : u.onLine (holdPlace i) = false := by rw [is]; rfl
    have due_at : u.entry (holdPlace i) = due := by
      rw [is, ← place]
      exact Vector.getElem_set_self ..
    have withdrawn : (u.commitTaken i n tag commit h').withdrawObject (holdPlace i) =
        (u.commitTaken i n tag commit h').setEntry a.place (due.filter (fun x => x.kind != .object)) := by
      have entry : (u.commitTaken i n tag commit h').entry (holdPlace i) = due := due_at
      rw [withdrawObject_eq, withdrawEntry_entry, show (u.commitTaken i n tag commit h').onLine (holdPlace i) = false from off,
        entry, place]
      cases due with
      | none => rfl
      | some x => cases object : x.kind == .object <;> simp [object, Option.filter, bne]
    rw [sent, reportSent_hold place, kind, holdSent_commit committing, commitSent_eq found, bits, ← committed,
      supersede_commitTaken okU committing found (by rw [bits]; exact committed) lit, withdrawn]
    have both : s.tv.counter + 2#32 = u.tv.counter + 1#32 + 1#32 := by rw [tv, BitVec.add_assoc]; rfl
    rw [both, ← erased, ← clp, ← own]
    have due_set : u.lac.due.set a.place (due.filter (fun x => x.kind != .object)) =
        s.lac.due.set a.place (due.filter (fun x => x.kind != .object)) := by
      rw [is]
      exact Vector.set_set ..
    rw [← due_set]
    refine congrArg _ ?_
    unfold State.ownGone State.setEntry State.commitTaken
    dsimp only
    rw [Vector.set_set]
    rfl

end Sys2Proof.Machine

namespace Sys2Proof.Machine

/-! Receive activity, dropped frames, the silence watch and the echo (R1, R9, R11, R12, R16, R18). -/

namespace State

variable {s : State}

/-- A rise of activity, by what it makes of the frame on the line (R11). -/
theorem missLimit_sending (s : State) : s.missLimit.lac.sending =
    match s.lac.attempt with
    | none => s.lac.sending
    | some a => if s.brokenOff = none ∧ s.lac.echo = false ∧ a.startedAt + 12 < s.now
      then some ⟨a.startedAt, a.frame, some 12⟩ else s.lac.sending := by
  unfold State.missLimit
  cases s.lac.attempt with
  | none => rfl
  | some a =>
    dsimp only
    have late : (s.brokenOff.isNone && !s.lac.echo && decide (a.startedAt + echoLimit < s.now)) = true ↔
        s.brokenOff = none ∧ s.lac.echo = false ∧ a.startedAt + 12 < s.now := by
      rw [Bool.and_eq_true, Bool.and_eq_true, Option.isNone_iff_eq_none, Bool.not_eq_true', decide_eq_true_eq, and_assoc]
      rfl
    by_cases h : s.brokenOff = none ∧ s.lac.echo = false ∧ a.startedAt + 12 < s.now
    · rw [if_pos h, if_pos (late.2 h)]
      rfl
    · rw [if_neg h, if_neg (mt late.1 h)]

/-- A fall of activity, by what it makes of the frame on the line (R11). -/
theorem fallSilent_sending (s : State) : s.fallSilent.lac.sending =
    match s.lac.attempt with
    | none => s.lac.sending
    | some a => if s.brokenOff = none ∧ s.lac.echo = true then some ⟨a.startedAt, a.frame, some (s.now - a.startedAt)⟩
      else s.lac.sending := by
  unfold State.fallSilent
  dsimp only
  cases s.lac.attempt with
  | none => rfl
  | some a =>
    have lost : (s.lac.echo && s.brokenOff.isNone) = true ↔ s.brokenOff = none ∧ s.lac.echo = true := by
      rw [Bool.and_eq_true, Option.isNone_iff_eq_none, and_comm]
    dsimp only
    by_cases h : s.brokenOff = none ∧ s.lac.echo = true
    · rw [if_pos h, if_pos (lost.2 h)]
      rfl
    · rw [if_neg h, if_neg (mt lost.1 h)]

theorem fallSilent_stands (s : State) : s.fallSilent = { s with
    lac.activity := false, lac.echo := false, lac.assembler := .waiting, lac.sending := s.fallSilent.lac.sending } := by
  unfold State.fallSilent
  dsimp only
  split
  · rfl
  · split <;> rfl

theorem receiveFrame_deaf {k : FrameKind} {origin : BitVec 16} {body : List Byte} (deaf : s.lac.activity = false ∨ s.lac.echo = true) :
    s.receiveFrame k origin body = s := by
  unfold State.receiveFrame State.listens
  rcases deaf with silent | echo
  · rw [silent, Bool.false_and]
    rfl
  · rw [echo, Bool.not_true, Bool.and_false]
    rfl

theorem receiveLine_deaf {line : List LineBit} (deaf : s.lac.activity = false ∨ s.lac.echo = true) :
    s.receiveLine line = s := by
  unfold State.receiveLine State.listens
  rcases deaf with silent | echo
  · rw [silent, Bool.false_and]
    rfl
  · rw [echo, Bool.not_true, Bool.and_false]
    rfl

/-- An echo that matches so far ends nothing (R12). -/
theorem judgeEcho_matching {a : Attempt} {echo : List LineBit} (on : s.lac.attempt = some a)
    (same : firstMismatch (lineRun a.frame) echo = none) (short : echo.length < 8 * (a.frame.length + 4)) :
    s.judgeEcho echo = s := by
  unfold State.judgeEcho
  rw [on]
  dsimp only
  rw [same]
  exact if_neg (Nat.not_le.2 short)

theorem judgeEcho_idle {echo : List LineBit} (idle : s.lac.attempt = none) : s.judgeEcho echo = s := by
  unfold State.judgeEcho
  rw [idle]

end State

open State

/-- Settles O42. -/
theorem lineIsWatched : Obligations.LineIsWatched := by
  unfold Obligations.LineIsWatched
  refine ⟨fun dt s running => ?_, fun dt s running => ?_, fun received ending s running active heard dropped => ?_,
    fun received ending s running deaf => ?_, fun k origin body s running deaf => ?_, fun e s running watch => ?_,
    fun s running stopped => ?_, fun c echo a s running on row => ?_, fun c echo s running idle row => ?_⟩
  · rw [exec_event (c := .receiveActivityRise dt) rfl running]
    refine congrArg _ ?_
    have sending := missLimit_sending ({ s with events := s.events + 1 }.elapse dt)
    have watch : (s.lac.watch.after dt).restarted = if s.lac.watch = .off then .off else .running 0 := by
      cases s.lac.watch <;> rfl
    unfold State.riseActivity
    rw [State.missLimit_eq, sending, ← watch]
    cases attempt : s.lac.attempt with
    | none =>
      have idle : (State.elapse dt { s with events := s.events + 1 }).lac.attempt = none := attempt
      rw [idle]
      rfl
    | some a =>
      have on : (State.elapse dt { s with events := s.events + 1 }).lac.attempt = some a := attempt
      rw [on]
      rfl
  · rw [exec_event (c := .receiveActivityFall dt) rfl running]
    refine congrArg _ ?_
    have sending := fallSilent_sending (State.elapse dt { s with events := s.events + 1 })
    dsimp only
    rw [fallSilent_stands]
    cases attempt : s.lac.attempt with
    | none =>
      rw [show (State.elapse dt { s with events := s.events + 1 }).lac.attempt = none from attempt] at sending
      rw [sending]
      rfl
    | some a =>
      rw [show (State.elapse dt { s with events := s.events + 1 }).lac.attempt = some a from attempt] at sending
      rw [sending]
      rfl
  · rw [exec_event (c := .frameDropped received ending) rfl running]
    have none_ : (s.lac.assembler.ended (received ++ ending)).filterMap judgeEnded = [] := List.filterMap_eq_nil_iff.2 dropped
    exact congrArg _ (State.receiveLine_dropped (s := { s with events := s.events + 1 }) _ active heard none_)
  · rw [exec_event (c := .frameDropped received ending) rfl running]
    exact congrArg _ (receiveLine_deaf (s := { s with events := s.events + 1 }) deaf)
  · have ignored {kind : FrameKind} : State.receiveFrame kind origin body { s with events := s.events + 1 } =
        { s with events := s.events + 1 } := receiveFrame_deaf deaf
    cases k <;> exact (exec_event rfl running).trans (congrArg _ ignored)
  · rw [exec_event (c := .silenceWatchExpiry) rfl running]
    refine congrArg _ ?_
    rw [watchExpires_running (s := { s with events := s.events + 1 }) watch, State.setIsolated_eq, Bool.bne_true]
    rfl
  · rw [exec_event (c := .silenceWatchExpiry) rfl running]
    exact congrArg _ (watchExpires_stopped (s := { s with events := s.events + 1 }) stopped)
  · rcases row with ⟨rfl, same, short⟩ | ⟨rfl, rises, whole⟩
    · rw [exec_event (c := .collision echo) rfl running]
      exact congrArg _ (judgeEcho_matching (s := { s with events := s.events + 1 }) on same short)
    · rw [exec_event (c := .echoLost) rfl running]
      refine congrArg _ ?_
      unfold State.loseEcho State.brokenOff
      rw [show State.lac { s with events := s.events + 1 } = s.lac from rfl, on, whole]
      exact if_pos rises
  · rcases row with rfl | rfl | rfl
    · rw [exec_event (c := .collision echo) rfl running]
      exact congrArg _ (judgeEcho_idle (s := { s with events := s.events + 1 }) idle)
    · rw [exec_event (c := .attemptSucceeded) rfl running]
      refine congrArg _ ?_
      unfold State.matchEcho
      rw [show State.lac { s with events := s.events + 1 } = s.lac from rfl, idle]
    · rw [exec_event (c := .echoLost) rfl running]
      refine congrArg _ ?_
      unfold State.loseEcho
      rw [show State.lac { s with events := s.events + 1 } = s.lac from rfl, idle]

end Sys2Proof.Machine

namespace Sys2Proof.Machine

/-! JOIN in CONFIGURED (R23, R56, R174). -/

/-- A lone node's links are not verified (R33). -/
theorem reverifiedLinks_alone {node : Nat} {r : NodeRecord} (id : r.id = node) (es : List LinkEntry) :
    reverifiedLinks node [r] (es.map (LinkEntry.record node)) = es.map (LinkEntry.record node) := by
  unfold reverifiedLinks
  rw [List.map_map]
  refine List.map_congr_left fun e _ => ?_
  have own : (e.record node).key.node = node := rfl
  have single : reverseStored [r] (es.map (LinkEntry.record node)) (e.record node) = false := by
    rw [reverseStored_eq]
    by_cases same : (e.record node).toNode = node
    · rw [own, same, bne_self_eq_false]
      rfl
    · have unknown : hasNode [r] (e.record node).toNode = false := by
        rw [← Bool.not_eq_true, hasNode_iff]
        rintro ⟨x, mem, is⟩
        rw [List.mem_singleton.1 mem, id] at is
        exact same is.symm
      rw [unknown, Bool.and_false, Bool.false_and]
  rw [Function.comp_apply, if_pos (.inl own), single]
  rfl

theorem storeLinks_empty {node : Nat} {es : List LinkEntry} (rising : Table.Sorted LinkEntry.fromPort es)
    (fits : ∀ e ∈ es, e.fromPort ≤ 15) : storeLinks node es (dropLinks node []) = es.map (LinkEntry.record node) := by
  obtain ⟨stored, mem⟩ := mem_storeLinks_iff (links := []) (node := node) List.Pairwise.nil nofun rising fits
  exact Table.ext stored (sorted_records rising node) fun l => (mem l).trans (or_iff_left List.not_mem_nil)

namespace State

variable {s : State}

theorem ownLinkSet_fits (s : State) : ∀ e ∈ s.ownLinkSet, e.fromPort ≤ 15 :=
  fun _ mem => Nat.le_of_lt_succ (mem_ownLinkSet.1 mem).1

/-- The own record and the own link set in an empty view (R23). -/
theorem ownStored_empty {v : Identity} (identity : s.sc.identity = some v) (nodes : s.tv.nodes = []) (links : s.tv.links = []) :
    s.ownStored = { s with
      tv.nodes := [⟨v.nodeId, v.profile, v.transit, s.tv.counter.setWidth 16, 0, true, 0⟩]
      tv.links := s.ownLinkSet.map (LinkEntry.record v.nodeId)
      tv.counter := s.tv.counter + 2#32
      ads := ⟨0, s.tv.counter.setWidth 16, 2, 0, false, .clear, false⟩ } := by
  have recorded := ownStored_nodes identity
  have stored := ownStored_links identity
  rw [nodes] at recorded
  rw [recorded, links, storeLinks_empty s.ownLinkSet_pairwise s.ownLinkSet_fits] at stored
  rw [show Table.put NodeRecord.id _ [] = [_] from rfl] at recorded stored
  rw [reverifiedLinks_alone (node := v.nodeId)
    (r := ⟨v.nodeId, v.profile, v.transit, s.tv.counter.setWidth 16, 0, true, 0⟩) rfl] at stored
  have counter : s.tv.counter + 2#32 = s.tv.counter + 1#32 + 1#32 := by rw [BitVec.add_assoc]; rfl
  rw [← recorded, ← stored, counter]
  unfold State.ownStored State.insertOwn
  rw [show s.joinAds.sc.identity = some v from identity]
  rfl

end State

open State

/-- Settles O15: the steps of R174 one after another. -/
theorem joinBeginsMembership : Obligations.JoinBeginsMembership := by
  unfold Obligations.JoinBeginsMembership
  intro tag v tm s takes station identity timing nodes links free
  rw [exec_taken (c := .join tag) rfl takes nofun]
  refine congrArg _ ?_
  have budget : s.accepted.fullBudget = tm.budget * 16 := by
    show s.timing.budget * 16 = _
    rw [State.timing, timing]
    rfl
  have stored := ownStored_empty (s := s.accepted) identity nodes links
  have due : (s.accepted.joined tag).dueEntry solicitPlace .solicit 1 =
      some ⟨.solicit, 1, s.events + 1, 0, none, none, false⟩ := by
    have sc : s.accepted.ownStored.sc = s.sc := ownStored_sc _
    have running : (s.accepted.joined tag).sc.station ≠ .muted := by
      show s.accepted.ownStored.sc.station ≠ .muted
      rw [sc, station]
      nofun
    have empty : (s.accepted.joined tag).entry solicitPlace = none := by
      show s.accepted.ownStored.entry 9 = none
      rw [stored]
      exact free
    unfold State.dueEntry
    rw [if_neg running, empty]
    show some (s.accepted.ownStored.newEntry .solicit 1) = _
    rw [stored]
    rfl
  refine (ownJoin_configured (s := s.accepted) station tag).trans ?_
  rw [State.makeDue_eq, due]
  unfold State.joined
  rw [show s.accepted.ownStored.fullBudget = _ from joined_budget s.accepted tag, budget, stored]
  rfl

end Sys2Proof.Machine

namespace Sys2Proof.Machine

/-! ## The slots settled one after another, by MUTED entry and by LEAVE (R111, R112) -/

/-- The HOLD COMMIT that waits in a slot whose hold ends. -/
def Slot.commitEnded (outcome : HoldOutcome) : Slot → Option Completion
  | .live sub n _ => sub.commitTag.map fun c => ⟨.holdCommit, c, outcome.status, .none, false, .holdNumber n⟩
  | _ => none

/-- The record of a LIVE slot. -/
def Slot.holdsRecord (x : Slot) (own : Nat) (h : Hold) : Bool := x.isLive && x.number == some h.number && h.origin == own

namespace State

variable {s t u : State} {outcome : HoldOutcome} {l : List (Fin 8)} {i : Fin 8}

theorem commitsEnded_eq (s : State) (outcome : HoldOutcome) :
    s.commitsEnded outcome = allSlots.filterMap fun i => (s.slot i).commitEnded outcome := by
  unfold State.commitsEnded
  refine congrArg (List.filterMap · allSlots) (funext fun i => ?_)
  cases s.slot i <;> rfl

/-- The slots `l` are settled: the holds of the LIVE ones ended with the outcome. -/
structure SlotsEnded (outcome : HoldOutcome) (l : List (Fin 8)) (s t : State) : Prop where
  holds : t.hu.holds = s.hu.holds.filter fun h => l.all fun i => !(s.slot i).holdsRecord s.ownId h
  counter : t.tv.counter = s.tv.counter + BitVec.ofNat 32 (l.countP fun i => (s.slot i).isLive)
  completions : t.clp.completions = s.clp.completions ++ l.filterMap fun i => (s.slot i).commitEnded outcome
  slots : ∀ j, j ∉ l → t.slot j = s.slot j
  stands : t = { s with tv.counter := t.tv.counter, hu.holds := t.hu.holds, hu.slots := t.hu.slots, lac.due := t.lac.due
                        clp.completions := t.clp.completions, clp.reservations := t.clp.reservations }

theorem SlotsEnded.due (h : SlotsEnded outcome l s t) (d : Vector (Option Entry) 10) :
    SlotsEnded outcome l s { t with lac.due := d } := by
  refine ⟨h.holds, h.counter, h.completions, h.slots, ?_⟩
  rw [h.stands]

theorem SlotsEnded.makeDue (h : SlotsEnded outcome l s t) (p : Fin 10) (k : FrameKind) (c : Fin 3) :
    SlotsEnded outcome l s (t.makeDue p k c) := by
  rw [State.makeDue_eq]
  exact h.due _

theorem SlotsEnded.of_due {d : Vector (Option Entry) 10} (h : SlotsEnded outcome l { s with lac.due := d } t) :
    SlotsEnded outcome l s t :=
  ⟨h.holds, h.counter, h.completions, h.slots, h.stands⟩

/-- A LIVE hold ends (R111, R112). -/
theorem slotsEnded_endHold (ok : s.HoldsOk) {sub : Substate} {n : BitVec 8} {tag : Tag} (slot : s.slot i = .live sub n tag)
    (outcome : HoldOutcome) (x : Slot) : SlotsEnded outcome [i] s (s.endHold i outcome x) := by
  rw [State.endHold_live _ ok slot]
  refine ⟨?_, ?_, ?_, fun j absent => ?_, rfl⟩
  · refine List.filter_congr fun h _ => ?_
    have coded : h.code = holdCode s.ownId n ↔ h.number = n ∧ h.origin = s.ownId :=
      ⟨fun same => (holdCode_inj same).symm, fun ⟨number, origin⟩ => by rw [Hold.code, number, origin]⟩
    rw [List.all_cons, List.all_nil, Bool.and_true, slot]
    show (h.code != holdCode s.ownId n) = !(some n == some h.number && h.origin == s.ownId)
    rw [Bool.eq_iff_iff]
    simp only [bne_iff_ne, Bool.not_eq_true', Bool.and_eq_false_iff, beq_eq_false_iff_ne, ne_eq, Option.some.injEq, coded,
      not_and_or, eq_comm (a := n)]
  · rw [List.countP_singleton, slot]
    rfl
  · rw [List.filterMap_cons, List.filterMap_nil, slot]
    show _ ++ _ = _
    cases taken : sub.commitTag <;> simp [Slot.commitEnded, taken]
  · exact State.slot_setSlot_ne _ _ _ _ (fun same => absent (List.mem_singleton.2 same))

/-- A slot whose hold ended before is settled. -/
theorem slotsEnded_setSlot (idle : (s.slot i).isLive = false) (x : Slot) : SlotsEnded outcome [i] s (s.setSlot i x) := by
  refine ⟨?_, ?_, ?_, fun j absent => ?_, rfl⟩
  · refine (List.filter_eq_self.2 fun h _ => ?_).symm
    rw [List.all_cons, List.all_nil, Bool.and_true, Slot.holdsRecord, idle]
    rfl
  · rw [List.countP_singleton, idle]
    exact (BitVec.add_zero _).symm
  · have waits : (s.slot i).commitEnded outcome = none := by
      cases slot : s.slot i with
      | live => rw [slot] at idle; cases idle
      | _ => rfl
    rw [List.filterMap_cons, waits]
    exact (List.append_nil _).symm
  · exact State.slot_setSlot_ne _ _ _ _ (fun same => absent (List.mem_singleton.2 same))

theorem setSlot_self (s : State) (i : Fin 8) : s.setSlot i (s.slot i) = s := by
  have same : s.hu.slots.set i (s.slot i) = s.hu.slots := Vector.set_getElem_self i.isLt
  unfold State.setSlot
  rw [same]

theorem slotsEnded_self (idle : (s.slot i).isLive = false) : SlotsEnded outcome [i] s s := by
  have same := slotsEnded_setSlot (outcome := outcome) idle (s.slot i)
  rwa [setSlot_self] at same

theorem slotsEnded_muteSlot (ok : s.HoldsOk) (i : Fin 8) : SlotsEnded .failed [i] s (s.muteSlot i) := by
  unfold State.muteSlot
  split
  · rename_i slot
    exact slotsEnded_endHold ok slot _ _
  · rename_i slot
    exact slotsEnded_setSlot (by rw [slot]; rfl) _
  · rename_i live _
    refine slotsEnded_self ?_
    cases slot : s.slot i with
    | live => exact absurd slot (live _ _ _)
    | _ => rfl

theorem slotsEnded_leaveSlot (ok : s.HoldsOk) (i : Fin 8) : SlotsEnded .released [i] s (s.leaveSlot i) := by
  unfold State.leaveSlot
  split
  · rename_i slot
    split
    · exact (slotsEnded_endHold ok slot _ _).makeDue _ _ _
    · have ended := slotsEnded_endHold (ok.withdrawEntry (holdPlace i)) (by rw [slot_withdrawEntry, slot]) .released .free
      rw [State.withdrawEntry_eq] at ended ⊢
      exact ended.of_due
  · rename_i slot
    exact (slotsEnded_endHold ok slot _ _).makeDue _ _ _
  · rename_i slot
    exact slotsEnded_setSlot (by rw [slot]; rfl) _
  · rename_i slot
    exact slotsEnded_setSlot (by rw [slot]; rfl) _
  · rename_i slot
    exact slotsEnded_self (by rw [slot]; rfl)

theorem SlotsEnded.cons (first : SlotsEnded outcome [i] s u) (rest : SlotsEnded outcome l u t) (absent : i ∉ l) :
    SlotsEnded outcome (i :: l) s t := by
  have kept : ∀ j ∈ l, u.slot j = s.slot j := fun j mem => first.slots j fun same => absent (List.mem_singleton.1 same ▸ mem)
  have own : u.ownId = s.ownId := by rw [first.stands]; rfl
  refine ⟨?_, ?_, ?_, fun j out => ?_, ?_⟩
  · rw [rest.holds, first.holds, List.filter_filter]
    refine List.filter_congr fun h _ => ?_
    rw [List.all_cons, List.all_cons, List.all_nil, Bool.and_true, Bool.and_comm, own]
    refine congrArg _ ?_
    rw [Bool.eq_iff_iff, List.all_eq_true, List.all_eq_true]
    exact forall₂_congr fun j mem => by rw [kept j mem]
  · rw [rest.counter, first.counter, BitVec.add_assoc, ← BitVec.ofNat_add]
    have same : l.countP (fun j => (u.slot j).isLive) = l.countP fun j => (s.slot j).isLive :=
      List.countP_congr fun j mem => by rw [kept j mem]
    rw [same, ← List.countP_append, List.singleton_append]
  · rw [rest.completions, first.completions, List.append_assoc]
    have same : l.filterMap (fun j => (u.slot j).commitEnded outcome) = l.filterMap fun j => (s.slot j).commitEnded outcome :=
      List.filterMap_congr fun j mem => by rw [kept j mem]
    rw [same, ← List.filterMap_append, List.singleton_append]
  · rw [rest.slots j fun mem => out (.tail _ mem), first.slots j fun mem => out (List.mem_singleton.1 mem ▸ .head _)]
  · rw [rest.stands, first.stands]

theorem slotsEnded_foldl {f : Fin 8 → State → State} (ends : ∀ s i, s.HoldsOk → SlotsEnded outcome [i] s (f i s))
    (keeps : ∀ s i, s.HoldsOk → (f i s).HoldsOk) (ok : s.HoldsOk) (distinct : l.Nodup) :
    SlotsEnded outcome l s (l.foldl (fun s i => f i s) s) := by
  induction l generalizing s with
  | nil =>
    refine ⟨(List.filter_eq_self.2 fun _ _ => rfl).symm, (BitVec.add_zero _).symm, (List.append_nil _).symm, fun _ _ => rfl, rfl⟩
  | cons i l ih =>
    obtain ⟨absent, distinct⟩ := List.nodup_cons.1 distinct
    exact (ends s i ok).cons (ih (keeps s i ok) distinct) absent

theorem slotsEnded_muteHolds (ok : s.HoldsOk) : SlotsEnded .failed allSlots s s.muteHolds :=
  slotsEnded_foldl (f := State.muteSlot) (fun _ i ok => slotsEnded_muteSlot ok i)
    (fun _ i ok => (ok.with.muteSlot i).ok (Work.muteSlot _ i)) ok (by decide)

theorem slotsEnded_leaveHolds (ok : s.HoldsOk) : SlotsEnded .released allSlots s s.leaveHolds :=
  slotsEnded_foldl (f := State.leaveSlot) (fun _ i ok => slotsEnded_leaveSlot ok i)
    (fun _ i ok => (ok.with.leaveSlot i).ok (Work.leaveSlot _ i)) ok (by decide)

/-! The slots of the whole table. -/

theorem SlotsEnded.holdsLeft (h : SlotsEnded outcome allSlots s t) : t.hu.holds = s.holdsLeft := h.holds

theorem SlotsEnded.commitsEnded (h : SlotsEnded outcome allSlots s t) :
    t.clp.completions = s.clp.completions ++ s.commitsEnded outcome := by
  rw [h.completions, commitsEnded_eq]

theorem SlotsEnded.counted (h : SlotsEnded outcome allSlots s t) :
    t.tv.counter = s.tv.counter + BitVec.ofNat 32 (s.hu.slots.toList.countP Slot.isLive) := by
  rw [h.counter, slots_toList, List.countP_map]
  rfl

end State
end Sys2Proof.Machine

namespace Sys2Proof.Machine

/-! LEAVE in MUTED, and the end of LEAVING (R113, R181, R182). -/

namespace State

variable {s u : State} {tag : Tag}

/-- The LEAVE that waits completes, and nothing of the membership is left (R40, R71, R113, R181). -/
theorem finishLeave_waiting (waits : s.sc.leaveWaiting = some tag) (status : Status) : s.finishLeave status = { s with
    tv := { nodes := [], links := [], viewIncomplete := false, counter := s.tv.counter + 1#32 }
    hu := { s.hu with holds := [], slots := Vector.replicate 8 .free, overflow := false }
    lac := { s.lac with due := Vector.replicate 10 none, budget := 0, watch := .off, isolated := false }
    ads := Ads.atReset
    sc := { s.sc with station := .configured, muted := false, riTimer := none, listen := 0, leaveWaiting := none }
    clp := { s.clp with
      completions := s.clp.completions ++ [⟨.leave, tag, status, .none, false, .none⟩]
      reservations := s.clp.reservations - 1
      marks := s.marksLeft (s.clp.marks.muted || s.sc.muted) } } := by
  have waits' : s.parted.sc.leaveWaiting = some tag := waits
  rw [finishLeave_eq, completeLeaving_eq, waits']
  rfl

/-- LEAVE settles a slot that is not LIVE in the slot itself (R112). -/
theorem leaveSlot_idle {i : Fin 8} (idle : (s.slot i).isLive = false) :
    ∃ x : Slot, s.leaveSlot i = s.setSlot i x ∧ x.isLive = false := by
  unfold State.leaveSlot
  cases slot : s.slot i with
  | free => exact ⟨s.slot i, (setSlot_self s i).symm, by rw [slot]; rfl⟩
  | live sub n t => rw [slot] at idle; cases idle
  | closing n t o b => exact ⟨_, rfl, rfl⟩
  | ended n t o => exact ⟨_, rfl, rfl⟩

/-- With no slot LIVE, LEAVE settles the slots alone (R112). -/
theorem leaveHolds_idle (idle : ∀ i : Fin 8, (s.slot i).isLive = false) : ∃ slots, s.leaveHolds = { s with hu.slots := slots } := by
  have settled : (∀ i : Fin 8, (s.leaveHolds.slot i).isLive = false) ∧ ∃ slots, s.leaveHolds = { s with hu.slots := slots } := by
    refine foldl_keeps (P := fun t : State => (∀ i : Fin 8, (t.slot i).isLive = false) ∧ ∃ slots, t = { s with hu.slots := slots })
      (fun t before i _ => ?_) ⟨idle, s.hu.slots, rfl⟩
    obtain ⟨still, slots, is⟩ := before
    obtain ⟨x, settles, ended⟩ := leaveSlot_idle (still i)
    refine ⟨fun j => ?_, slots.set i x, ?_⟩
    · rw [settles, slot_setSlot]
      split
      · exact ended
      · exact still j
    · rw [settles, is]
      rfl
  exact settled.2

theorem advanceSequence_writes (s : State) :
    ∃ ads nodes, s.advanceSequence = { s with ads := ads, tv.nodes := nodes } := by
  unfold State.advanceSequence State.writeOwnSequence
  split
  · exact ⟨_, _, rfl⟩
  · exact ⟨_, _, rfl⟩

theorem reportSent_withdraw {a : Attempt} (place : a.place = 8) (kind : a.kind = .withdraw) (follows : Bool) :
    u.reportSent a follows = u.advanceSequence.finishLeave .ok := by
  unfold State.reportSent
  rw [place, kind]
  rfl

theorem reportDropped_withdraw {a : Attempt} (place : a.place = 8) (kind : a.kind = .withdraw) :
    u.reportDropped a.place a.kind = u.finishLeave .mediumFailed := by
  unfold State.reportDropped
  rw [place, kind]
  rfl

end State

open State

/-- Settles O17: MUTED holds no LIVE slot and no entry, so only the flush precedes the end of the membership. -/
theorem leaveFromMutedCompletes : Obligations.LeaveFromMutedCompletes := by
  unfold Obligations.LeaveFromMutedCompletes
  intro tag s takes agree station
  have muted : s.sc.muted = true := agree.muted.2 station
  have left : s.accepted.ownLeave tag = s.accepted.leaveMuted tag := by
    unfold State.ownLeave
    rw [State.accepted_sc, station]
  obtain ⟨slots, settled⟩ := leaveHolds_idle (s := s.accepted.flushPaths) fun i => by
    rw [slot_congr (s := s) (congrArg Hu.slots (flushPaths_hu s.accepted))]
    exact agree.noHold (by rw [station]; nofun) i
  refine ⟨_, exec_taken (c := .leave tag) rfl takes nofun, ?_⟩
  have flushed : s.accepted.pathsFlushed = s.pathsFlushed := rfl
  rw [left, leaveMuted_eq, settled, flushPaths_eq, flushed, finishLeave_waiting (tag := tag) rfl]
  have marks : s.marksLeft (s.clp.marks.muted || s.sc.muted) = s.marksLeft true := by rw [muted, Bool.or_true]
  rw [← marks]
  have noted : s.sc.leaveWaiting = none := by
    cases waits : s.sc.leaveWaiting with
    | none => rfl
    | some _ => exact absurd (agree.leaving.1 (by rw [waits]; rfl)) (by rw [station]; nofun)
  have sc : ({ s.sc with station := .configured, muted := false, riTimer := none, listen := 0, leaveWaiting := none } : Sc) =
      { s.sc with station := .configured, muted := false, riTimer := none, listen := 0 } := by
    dsimp only
    rw [noted]
  exact ⟨sc, rfl, rfl, rfl, rfl, rfl, rfl, rfl, rfl, rfl, rfl⟩

/-- Settles O18: the withdraw ADVERT's SENT and its DROPPED both end the membership. -/
theorem withdrawEndsLeave : Obligations.WithdrawEndsLeave := by
  unfold Obligations.WithdrawEndsLeave
  intro c a e tag status u s running station unmuted waits on place kind entry alone ends
  have entry' : s.entry a.place = some e := by rw [place]; exact entry
  obtain ⟨v, ended, due, ads, nodes, rfl, n, cut, rfl⟩ : ∃ v, exec c s = .next (v.finishLeave status) ∧ ∃ due ads nodes,
      v = { u with lac.due := due, ads := ads, tv.nodes := nodes } ∧
        ∃ n cut, u = { s.attemptOver a n with lac.sending := cut } := by
    rcases ends with ⟨succeeds, rfl, rfl⟩ | ⟨fails, stands, last, rfl⟩
    · have sent := exec_sent running on entry' succeeds rfl rfl
      rw [reportSent_withdraw place kind] at sent
      obtain ⟨ads, nodes, advanced⟩ := advanceSequence_writes { s.attemptOver a (8 * (a.frame.length + 4)) with
        lac.due := s.lac.due.set a.place (e.followOn.map fun f => ⟨f.1, f.2, s.events + 1, 0, none, none, false⟩) }
      exact ⟨_, sent, _, _, _, advanced, _, _, rfl⟩
    · have dropped := exec_eighth running on entry' alone stands last fails rfl
      rw [reportDropped_withdraw place kind] at dropped
      obtain ⟨n, is⟩ := failsBy_aborted fails
      exact ⟨_, dropped, _, _, _, rfl, _, _, is⟩
  have marks : s.marksLeft (s.clp.marks.muted || s.sc.muted) = s.marksLeft s.clp.marks.muted := by
    rw [unmuted, Bool.or_false]
  have sc : ({ s.sc with station := .configured, muted := false, riTimer := none, listen := 0, leaveWaiting := none } : Sc) =
      { s.sc with station := .configured, riTimer := none, listen := 0, leaveWaiting := none } := by
    dsimp only
    rw [unmuted]
  have left := finishLeave_waiting (s := { s.attemptOver a n with
    lac.sending := cut, lac.due := due, ads := ads, tv.nodes := nodes }) (tag := tag) waits status
  refine ⟨_, ended.trans (congrArg _ left), ?_⟩
  rw [← marks]
  exact ⟨sc, rfl, rfl, rfl, rfl, rfl, rfl, rfl, rfl, rfl, rfl, rfl⟩

end Sys2Proof.Machine

namespace Sys2Proof.Machine

/-! ## The places of the holds, written one after another (R96, R97, R112) -/

theorem Table.lookup_put_key {α : Type} (key : α → Nat) (x : α) (l : List α) : Table.lookup key (key x) (Table.put key x l) = some x := by
  induction l with
  | nil => exact List.find?_cons_of_pos (beq_self_eq_true _)
  | cons y l ih =>
    unfold Table.put
    split
    · exact List.find?_cons_of_pos (beq_self_eq_true _)
    · split
      · exact List.find?_cons_of_pos (beq_self_eq_true _)
      · rename_i other
        exact (List.find?_cons_of_neg (by rw [beq_iff_eq]; exact Ne.symm other)).trans ih

namespace State

variable {s t : State}

theorem onLine_congr (attempt : t.lac.attempt = s.lac.attempt) (p : Fin 10) : t.onLine p = s.onLine p := by
  unfold State.onLine
  rw [attempt]

theorem makeDue_entry (s : State) (p : Fin 10) (k : FrameKind) (c : Fin 3) : (s.makeDue p k c).entry p = s.dueEntry p k c := by
  rw [State.makeDue_eq, State.entry_setEntry_self]

/-- What is due in a place rests on the place, the attempt, the station state and the event's number. -/
theorem dueEntry_congr {p : Fin 10} (entry : t.entry p = s.entry p) (attempt : t.lac.attempt = s.lac.attempt)
    (station : t.sc.station = s.sc.station) (events : t.events = s.events) (k : FrameKind) (c : Fin 3) :
    t.dueEntry p k c = s.dueEntry p k c := by
  unfold State.dueEntry State.newEntry
  rw [entry, onLine_congr attempt, station, events]

/-- Work on one hold place after another leaves each as its own turn leaves it. -/
theorem foldl_entry {f : State → Fin 8 → State} {g : State → Fin 8 → Option Entry}
    (self : ∀ s i, (f s i).entry (holdPlace i) = g s i)
    (other : ∀ s i j, j ≠ i → (f s i).entry (holdPlace j) = s.entry (holdPlace j) ∧ g (f s i) j = g s j)
    {l : List (Fin 8)} (distinct : l.Nodup) (s : State) (j : Fin 8) :
    (l.foldl f s).entry (holdPlace j) = if j ∈ l then g s j else s.entry (holdPlace j) := by
  induction l generalizing s with
  | nil => rfl
  | cons i l ih =>
    obtain ⟨absent, distinct⟩ := List.nodup_cons.1 distinct
    rw [List.foldl_cons, ih distinct]
    by_cases same : j = i
    · subst same
      rw [if_neg absent, if_pos (List.mem_cons_self ..), self]
    · obtain ⟨kept, kept'⟩ := other s i j same
      simp only [List.mem_cons, same, false_or, kept, kept']

/-! ### Restating (R97) -/

/-- The place of a slot after it is restated. -/
def restated (s : State) (i : Fin 8) : Option Entry :=
  match s.slot i with
  | .live (.announced _ _) _ _ => s.dueEntry (holdPlace i) .announce 1
  | .live .held _ _ => s.dueEntry (holdPlace i) .object 0
  | .live .committed _ _ => s.dueEntry (holdPlace i) .object 0
  | _ => s.entry (holdPlace i)

theorem restate_eq (s : State) (i : Fin 8) : s.restate i = s.setEntry (holdPlace i) (s.restated i) := by
  unfold State.restate State.restated
  cases s.slot i with
  | live sub n tag =>
    cases sub with
    | announced | held | committed => exact State.makeDue_eq ..
    | pending | committing => exact (s.setEntry_self _).symm
  | free | closing | ended => exact (s.setEntry_self _).symm

theorem restateAll_stands (s : State) : ∃ due, s.restateAll = { s with lac.due := due } :=
  foldl_keeps (P := fun t : State => ∃ due, t = { s with lac.due := due }) (fun t is i _ => by
    obtain ⟨due, rfl⟩ := is
    exact ⟨_, restate_eq ..⟩) ⟨s.lac.due, rfl⟩

theorem restateAll_entry (s : State) (i : Fin 8) : s.restateAll.entry (holdPlace i) = s.restated i := by
  refine (foldl_entry (f := fun s i => s.restate i) (g := State.restated) (fun s i => ?_) (fun s i j ne => ?_) (by decide) s
    i).trans (if_pos (mem_allSlots i))
  · rw [restate_eq, State.entry_setEntry_self]
  · have apart : holdPlace j ≠ holdPlace i := fun same => ne (holdPlace_inj same)
    have kept : (s.restate i).entry (holdPlace j) = s.entry (holdPlace j) := by
      rw [restate_eq, State.entry_setEntry_ne _ _ _ _ apart]
    refine ⟨kept, ?_⟩
    have due (k : FrameKind) (c : Fin 3) : (s.restate i).dueEntry (holdPlace j) k c = s.dueEntry (holdPlace j) k c := by
      refine dueEntry_congr kept ?_ ?_ ?_ k c <;> rw [restate_eq] <;> rfl
    have slot : (s.restate i).slot j = s.slot j := by rw [restate_eq]; rfl
    unfold State.restated
    rw [slot]
    cases s.slot j with
    | live sub n tag => cases sub <;> simp only [due, kept]
    | _ => exact kept

theorem restateAll_entry_other {p : Fin 10} (other : ∀ i, p ≠ holdPlace i) (s : State) : s.restateAll.entry p = s.entry p := by
  refine foldl_keeps (P := fun t : State => t.entry p = s.entry p) (fun t before i _ => ?_) rfl
  rw [restate_eq, State.entry_setEntry_ne _ _ _ _ (other i), before]

/-- What is restated of the slots as they were, time having passed (R97). -/
theorem restated_after {u : State} {dt : Nat} {i : Fin 8} (slot : s.slot i = (u.slot i).after dt)
    (entry : s.entry (holdPlace i) = t.entry (holdPlace i)) (attempt : s.lac.attempt = t.lac.attempt)
    (station : s.sc.station = t.sc.station) (events : s.events = t.events) : s.restated i =
      match u.slot i with
      | .live (.announced _ _) _ _ => (t.makeDue (holdPlace i) .announce 1).entry (holdPlace i)
      | .live .held _ _ => (t.makeDue (holdPlace i) .object 0).entry (holdPlace i)
      | .live .committed _ _ => (t.makeDue (holdPlace i) .object 0).entry (holdPlace i)
      | _ => t.entry (holdPlace i) := by
  have due (k : FrameKind) (c : Fin 3) :
      s.dueEntry (holdPlace i) k c = (t.makeDue (holdPlace i) k c).entry (holdPlace i) :=
    (dueEntry_congr entry attempt station events k c).trans (makeDue_entry t (holdPlace i) k c).symm
  unfold State.restated
  rw [slot]
  cases u.slot i with
  | live sub n tag =>
    cases sub with
    | announced | held | committed => exact due ..
    | pending | committing => exact entry
  | free | closing | ended => exact entry

/-! ## SENT for an ADVERT of the ADS (R58 to R60, R64) -/

theorem writeOwnSequence_eq {r : NodeRecord} (owns : s.ownRecord = some r) : s.writeOwnSequence = { s with
    tv.nodes := Table.put NodeRecord.id { r with sequence := s.ads.sequence } s.tv.nodes } := by
  unfold State.writeOwnSequence
  rw [owns]

theorem advanceSequence_eq {r : NodeRecord} (owns : s.ownRecord = some r) : s.advanceSequence = { s with
    ads.sequence := s.ads.sequence + 1#16, ads.debt := max (-8) (s.ads.debt - 1)
    tv.nodes := Table.put NodeRecord.id { r with sequence := s.ads.sequence + 1#16 } s.tv.nodes } := by
  unfold State.advanceSequence
  exact writeOwnSequence_eq owns

/-- After a fresh-start ADVERT every own hold of a station in OPERATING is restated (R64 step 3, R97). -/
theorem freshSent_writes (fresh : Bool) (s : State) : ∃ due,
    (if fresh then s.freshSent else s) = { s with
      ads.freshCount := if fresh then s.ads.freshCount - 1 else s.ads.freshCount, lac.due := due } ∧
    (∀ p, (∀ i, p ≠ holdPlace i) → State.entry { s with lac.due := due } p = s.entry p) ∧
    (∀ i, State.entry { s with lac.due := due } (holdPlace i) =
      if fresh = true ∧ s.sc.station = .operating then s.restated i else s.entry (holdPlace i)) := by
  cases fresh with
  | false => exact ⟨s.lac.due, rfl, fun _ _ => rfl, fun _ => rfl⟩
  | true =>
    by_cases operating : s.sc.station = .operating
    · obtain ⟨due, restates⟩ := restateAll_stands { s with ads.freshCount := s.ads.freshCount - 1 }
      refine ⟨due, ?_, fun p other => ?_, fun i => ?_⟩
      · unfold State.freshSent
        dsimp only
        rw [if_pos rfl, if_pos operating, if_pos rfl]
        exact restates
      · have kept := restateAll_entry_other other { s with ads.freshCount := s.ads.freshCount - 1 }
        rw [restates] at kept
        exact kept
      · have written := restateAll_entry { s with ads.freshCount := s.ads.freshCount - 1 } i
        rw [restates] at written
        rw [if_pos ⟨rfl, operating⟩]
        exact written
    · refine ⟨s.lac.due, ?_, fun _ _ => rfl, fun i => ?_⟩
      · unfold State.freshSent
        dsimp only
        rw [if_pos rfl, if_neg operating, if_pos rfl]
      · rw [if_neg fun both => operating both.2]

/-- An ADVERT counts in ANNOUNCING, and the second ends it (R64 step 6, R177). -/
theorem countAnnounced_eq {announced : Nat} {enters : Bool}
    (counted : announced = if s.sc.station = .announcing then s.ads.announceCount + 1 else s.ads.announceCount)
    (second : enters = decide (s.sc.station = .announcing ∧ announced = 2)) : s.countAnnounced = { s with
      ads.announceCount := announced
      sc.station := if enters then .operating else s.sc.station
      sc.joinWaiting := if enters then none else s.sc.joinWaiting
      clp.completions := s.clp.completions ++ (if enters then
          (s.sc.joinWaiting.map (fun j => (⟨.join, j, .ok, .none, false, .none⟩ : Completion))).toList else [])
      clp.reservations := s.clp.reservations - (if enters then s.sc.joinWaiting.toList.length else 0) } := by
  unfold State.countAnnounced
  by_cases announcing : s.sc.station = .announcing
  · rw [if_pos announcing] at counted
    by_cases two : announced = 2
    · have enters : enters = true := by rw [second]; exact decide_eq_true ⟨announcing, two⟩
      dsimp only
      rw [if_pos announcing, if_pos (counted ▸ two), enters, counted]
      unfold State.enterOperating
      rw [completeJoin_eq]
      rfl
    · have stays : enters = false := by rw [second]; exact decide_eq_false fun both => two both.2
      dsimp only
      rw [if_pos announcing, if_neg (counted ▸ two), stays, counted]
      simp only [Bool.false_eq_true, if_false, List.append_nil, Nat.sub_zero]
  · have stays : enters = false := by rw [second]; exact decide_eq_false fun both => announcing both.1
    rw [if_neg announcing] at counted
    rw [if_neg announcing, stays, counted]
    simp only [Bool.false_eq_true, if_false, List.append_nil, Nat.sub_zero]

/-- An ADVERT of the class owed, if any, is the new entry of the empty place 8 (R58, R59). -/
def advertOwed (owed : Option (Fin 3)) (s : State) : State :=
  match owed with
  | none => s
  | some c => { s.setEntry 8 (some (s.newAdvert c)) with ads.entryPresent := true }

theorem advertOwed_writes (owed : Option (Fin 3)) (s : State) : ∃ due,
    s.advertOwed owed = { s with lac.due := due, ads.entryPresent := s.ads.entryPresent || owed.isSome } ∧
    (∀ p, p ≠ 8 → State.entry { s with lac.due := due } p = s.entry p) ∧
    State.entry { s with lac.due := due } 8 = (owed.map s.newAdvert).or (s.entry 8) := by
  cases owed with
  | none => exact ⟨s.lac.due, by rw [Option.isSome_none, Bool.or_false]; rfl, fun _ _ => rfl, rfl⟩
  | some c =>
    refine ⟨(s.setEntry 8 (some (s.newAdvert c))).lac.due, by rw [Option.isSome_some, Bool.or_true]; rfl, fun p ne => ?_, ?_⟩
    · exact State.entry_setEntry_ne s 8 p (some (s.newAdvert c)) ne
    · exact State.entry_setEntry_self (s := s) 8 (some (s.newAdvert c))

/-- The due check below a debt of 8, where a place without an entry present is empty (R59). -/
theorem dueCheck_eq {owed : Option (Fin 3)} (below : s.ads.debt ≠ 8) (unmuted : s.sc.station ≠ .muted)
    (free : s.ads.entryPresent = false → s.entry 8 = none)
    (owes : owed = if (s.advertising && !s.ads.postDropWait && !s.ads.entryPresent) = true then
      owedClass s.sc.station s.ads.announceCount s.ads.mark s.ads.debt else none) :
    s.dueCheck = s.advertOwed owed := by
  have table : s.dueClass = owedClass s.sc.station s.ads.announceCount s.ads.mark s.ads.debt := rfl
  unfold State.dueCheck
  cases advertises : s.advertising with
  | false =>
    rw [owes, advertises]
    rfl
  | true =>
    cases waits : s.ads.postDropWait with
    | true =>
      rw [owes, advertises, waits]
      rfl
    | false =>
      cases present : s.ads.entryPresent with
      | true =>
        rw [owes, advertises, waits, present, if_pos rfl, if_neg below]
        rfl
      | false =>
        rw [advertises, waits, present] at owes
        rw [table, owes]
        cases owedClass s.sc.station s.ads.announceCount s.ads.mark s.ads.debt with
        | none => rfl
        | some c =>
          have new : s.dueEntry advertPlace .advert c = some (s.newAdvert c) := by
            unfold State.dueEntry
            rw [if_neg unmuted, show s.entry advertPlace = none from free present]
            rfl
          show s.makeAdvertDue c = _
          unfold State.makeAdvertDue
          rw [State.makeDue_eq, new]
          rfl

theorem reportSent_advert {a : Attempt} (place : a.place = 8) (kind : a.kind = .advert) (follows : Bool) :
    s.reportSent a follows = s.advertSent a.fresh follows := by
  unfold State.reportSent
  rw [place, kind]
  rfl

/-- SENT reaches the ADS, with the follow-on of its entry due in place 8 (R6, R58). -/
theorem exec_advertSent {c : Instr} {a : Attempt} {e : Entry} (running : s.resetHeld = false) (on : s.lac.attempt = some a)
    (place : a.place = 8) (kind : a.kind = .advert) (succeeds : succeedsBy a c) (entry : s.entry 8 = some e) :
    exec c s = .next (State.advertSent a.fresh e.followOn.isSome { s.attemptOver a (8 * (a.frame.length + 4)) with
      lac.due := s.lac.due.set 8 (e.followOn.map fun f => ⟨f.1, f.2, s.events + 1, 0, none, none, false⟩) }) := by
  have entry' : s.entry a.place = some e := by rw [place]; exact entry
  have sent := exec_sent running on entry' succeeds rfl rfl
  rw [reportSent_advert place kind] at sent
  simp only [place] at sent
  exact sent

theorem delivered_eq (m : ContentMark) : m.delivered = if m = .carried then .clear else m := by cases m <;> rfl

/-- SENT for an ADVERT up to its due check (R60, R64). -/
theorem advertSent_eq {r : NodeRecord} {debt : Int} {mark : ContentMark} {announced : Nat} {enters : Bool}
    (owns : s.ownRecord = some r) (refresh : debt = max (-8) (s.ads.debt - 1))
    (marks : mark = if s.ads.mark = .carried then .clear else s.ads.mark)
    (counted : announced = if s.sc.station = .announcing then s.ads.announceCount + 1 else s.ads.announceCount)
    (second : enters = decide (s.sc.station = .announcing ∧ announced = 2)) (fresh follows : Bool) : ∃ due,
    s.advertSent fresh follows = State.dueCheck { s with
      lac.due := due
      tv.nodes := Table.put NodeRecord.id { r with sequence := s.ads.sequence + 1#16 } s.tv.nodes
      ads := { s.ads with
        sequence := s.ads.sequence + 1#16, debt := debt, mark := mark, announceCount := announced
        freshCount := if fresh then s.ads.freshCount - 1 else s.ads.freshCount, entryPresent := follows }
      sc := { s.sc with
        station := if enters then .operating else s.sc.station
        joinWaiting := if enters then none else s.sc.joinWaiting }
      clp := { s.clp with
        completions := s.clp.completions ++ (if enters then
          (s.sc.joinWaiting.map (fun j => (⟨.join, j, .ok, .none, false, .none⟩ : Completion))).toList else [])
        reservations := s.clp.reservations - (if enters then s.sc.joinWaiting.toList.length else 0) } } ∧
    (∀ p, (∀ i, p ≠ holdPlace i) → State.entry { s with lac.due := due } p = s.entry p) ∧
    (∀ i, State.entry { s with lac.due := due } (holdPlace i) =
      if fresh = true ∧ s.sc.station = .operating then s.restated i else s.entry (holdPlace i)) := by
  obtain ⟨due, sent, others, places⟩ := freshSent_writes fresh { s with
    ads.sequence := s.ads.sequence + 1#16, ads.debt := max (-8) (s.ads.debt - 1)
    tv.nodes := Table.put NodeRecord.id { r with sequence := s.ads.sequence + 1#16 } s.tv.nodes }
  have counts := countAnnounced_eq (s := { s with
    lac.due := due
    tv.nodes := Table.put NodeRecord.id { r with sequence := s.ads.sequence + 1#16 } s.tv.nodes
    ads := { s.ads with
      sequence := s.ads.sequence + 1#16, debt := max (-8) (s.ads.debt - 1), mark := s.ads.mark.delivered
      freshCount := if fresh then s.ads.freshCount - 1 else s.ads.freshCount, entryPresent := follows } }) counted second
  refine ⟨due, ?_, others, places⟩
  unfold State.advertSent
  rw [advanceSequence_eq owns]
  dsimp only
  rw [sent, refresh, marks, ← delivered_eq]
  exact congrArg State.dueCheck counts

end State

open State

/-- Settles O36: the steps of R64 one after another, then the due check. -/
theorem advertSentAdvancesSequence : Obligations.AdvertSentAdvancesSequence := by
  unfold Obligations.AdvertSentAdvancesSequence
  intro c a e r debt mark announced enters owed u s running stations on place kind succeeds entry owns range refresh marks
    counted second owes is
  have below : debt ≠ 8 := by omega
  subst is
  have sent := exec_advertSent running on place kind succeeds entry
  generalize next : e.followOn.map (fun f => (⟨f.1, f.2, s.events + 1, 0, none, none, false⟩ : Entry)) = follow at sent
  obtain ⟨due, checked, others, places⟩ := advertSent_eq (s := { s.attemptOver a (8 * (a.frame.length + 4)) with
    lac.due := s.lac.due.set 8 follow }) owns refresh marks counted second a.fresh e.followOn.isSome
  have following := others 8 fun i same => holdPlace_ne_advert i same.symm
  have solicit := others 9 fun i same => holdPlace_ne_solicit i same.symm
  rw [checked, dueCheck_eq (owed := owed) below] at sent
  · generalize before : State.mk .. = y at sent
    obtain ⟨due', made, kept, adverts⟩ := advertOwed_writes owed y
    rw [made] at sent
    refine ⟨_, sent, ?_⟩
    subst before
    have place8 : State.entry { s.attemptOver a (8 * (a.frame.length + 4)) with lac.due := s.lac.due.set 8 follow } 8 = follow :=
      State.entry_setEntry_self (s := s) 8 follow
    have stay {p : Fin 10} (ne : p ≠ 8) : State.entry { s.attemptOver a (8 * (a.frame.length + 4)) with
        lac.due := s.lac.due.set 8 follow } p = s.entry p := State.entry_setEntry_ne s 8 p follow ne
    refine ⟨rfl, rfl, rfl, ?_, rfl, ?_, ?_, ?_, fun fresh operating i => ?_, fun other i => ?_, ?_, rfl, rfl⟩
    · have mine : r.id = s.ownId := beq_iff_eq.1 (List.find?_some (p := fun x : NodeRecord => x.id == s.ownId) owns)
      exact (congrArg (Table.lookup NodeRecord.id · _) mine.symm).trans
        (Table.lookup_put_key NodeRecord.id { r with sequence := s.ads.sequence + 1#16 } s.tv.nodes)
    · show s.lac.budget - (8 * (a.frame.length + 4) + 7) / 8 = _
      omega
    · show s.now + (a.startedAt + 8 * (a.frame.length + 4) - s.now) = _
      omega
    · refine (adverts.trans (congrArg _ (following.trans place8))).trans ?_
      cases follows : e.followOn with
      | none =>
        rw [follows] at next
        rw [← next]
        exact Option.or_none
      | some f =>
        rw [follows, if_pos (.inr (.inl rfl))] at owes
        rw [follows] at next
        rw [← next, owes]
        rfl
    · refine (kept _ (holdPlace_ne_advert i)).trans ((places i).trans ?_)
      rw [if_pos ⟨fresh, operating⟩]
      exact restated_after (State.elapse_slot { s with events := s.events + 1 } _ i) (stay (holdPlace_ne_advert i)) rfl rfl rfl
    · refine (kept _ (holdPlace_ne_advert i)).trans ((places i).trans ?_)
      rw [if_neg fun both => other.elim (fun stale => by rw [both.1] at stale; cases stale) fun no => no both.2]
      exact stay (holdPlace_ne_advert i)
    · exact (kept 9 (by decide)).trans (solicit.trans (stay (by decide)))
  · show (if enters then Station.operating else s.sc.station) ≠ .muted
    split
    · nofun
    · rcases stations with is | is | is <;> rw [is] <;> nofun
  · intro alone
    rw [Option.isSome_eq_false_iff, Option.isNone_iff_eq_none] at alone
    rw [alone] at next
    refine following.trans ?_
    rw [← next]
    exact State.entry_setEntry_self (s := s) 8 none
  · have advertises : ((if enters then Station.operating else s.sc.station) == .announcing ||
        (if enters then Station.operating else s.sc.station) == .operating) = !decide (s.sc.station = .leaving) := by
      rcases stations with is | is | is
      · rw [is]
        cases enters <;> rfl
      · rw [is]
        cases enters <;> rfl
      · rw [second, is]
        rfl
    have owing : owed = if (!decide (s.sc.station = .leaving) && !s.ads.postDropWait && !e.followOn.isSome) = true then
        owedClass (if enters then .operating else s.sc.station) announced mark debt else none := by
      rw [owes, ← ite_not]
      refine if_congr ?_ rfl rfl
      simp only [not_or, Bool.and_eq_true, Bool.not_eq_true', Bool.not_eq_true, decide_eq_false_iff_not]
      exact ⟨fun ⟨dropped, alone, stays⟩ => ⟨⟨stays, dropped⟩, alone⟩, fun ⟨⟨stays, dropped⟩, alone⟩ => ⟨dropped, alone, stays⟩⟩
    rw [← advertises] at owing
    exact owing

end Sys2Proof.Machine

namespace Sys2Proof.Machine

/-! ## A duplicate identity (R178, R179) -/

namespace State

variable {s t u : State} {tag : Tag}

/-- Where no slot is LIVE, MUTED entry settles the slots alone (R111). -/
theorem muteHolds_idle (idle : ∀ i : Fin 8, (s.slot i).isLive = false) : ∃ slots, s.muteHolds = { s with hu.slots := slots } := by
  have settled : (∀ i : Fin 8, (s.muteHolds.slot i).isLive = false) ∧ ∃ slots, s.muteHolds = { s with hu.slots := slots } := by
    refine foldl_keeps (P := fun t : State => (∀ i : Fin 8, (t.slot i).isLive = false) ∧ ∃ slots, t = { s with hu.slots := slots })
      (fun t before i _ => ?_) ⟨idle, s.hu.slots, rfl⟩
    obtain ⟨still, slots, is⟩ := before
    refine ⟨fun j => ?_, ?_⟩
    · rw [muteSlot_slot]
      split
      · exact muted_isLive _
      · exact still j
    · unfold State.muteSlot
      cases slot : t.slot i with
      | live sub n tag => have ended := still i; rw [slot] at ended; cases ended
      | closing => exact ⟨_, by rw [is]; rfl⟩
      | free | ended => exact ⟨_, is⟩
  exact settled.2

theorem removeHold_writes (s : State) (code : Nat) : ∃ tv hu clp, s.removeHold code = { s with tv := tv, hu := hu, clp := clp } := by
  unfold State.removeHold
  split
  · exact ⟨_, _, _, rfl⟩
  · dsimp only
    split
    · exact ⟨_, _, _, rfl⟩
    · rw [State.setOverflow_eq]
      exact ⟨_, _, _, rfl⟩

theorem completeCommit_writes (s : State) (i : Fin 8) (status : Status) (items : Items) :
    ∃ clp, s.completeCommit i status items = { s with clp := clp } := by
  unfold State.completeCommit
  split
  · split <;> exact ⟨_, rfl⟩
  · exact ⟨_, rfl⟩

/-- The end of a hold writes the view counter, the HU and the control link alone. -/
theorem endHold_writes (s : State) (i : Fin 8) (outcome : HoldOutcome) (x : Slot) :
    ∃ tv hu clp, s.endHold i outcome x = { s with tv := tv, hu := hu, clp := clp } := by
  unfold State.endHold
  split
  · exact ⟨_, _, _, rfl⟩
  · rename_i n _
    obtain ⟨tv, hu, clp, removes⟩ := removeHold_writes s (holdCode s.ownId n)
    obtain ⟨clp', completes⟩ := completeCommit_writes (s.removeHold (holdCode s.ownId n)) i outcome.status (.holdNumber n)
    rw [completes, removes]
    exact ⟨_, _, _, rfl⟩

theorem muteSlot_lac (s : State) (i : Fin 8) : (s.muteSlot i).lac = s.lac := by
  unfold State.muteSlot
  split
  · obtain ⟨tv, hu, clp, ends⟩ := endHold_writes s i .failed (.ended _ _ .failed)
    rw [ends]
  · rfl
  · rfl

theorem muteHolds_lac (s : State) : s.muteHolds.lac = s.lac :=
  foldl_keeps (P := fun t : State => t.lac = s.lac) (fun t before i _ => (muteSlot_lac t i).trans before) rfl

/-- The LAC after its attempt was cut and its due list emptied (R15). -/
def lacCut (s : State) : Lac := { s.lac with
  due := Vector.replicate 10 none, attempt := none
  sending := match s.lac.attempt with
    | none => s.lac.sending
    | some a => some ⟨a.startedAt, a.frame, some (s.sentBefore a)⟩
  budget := match s.lac.attempt with
    | none => s.lac.budget
    | some a => s.lac.budget - (s.sentBefore a + 8 + 7) / 8 }

theorem silenced_eq (s : State) : s.silenced = { s with
    lac := s.lacCut
    sc := { s.sc with station := .muted, muted := true }
    clp.marks.muted := s.clp.marks.muted || (s.sc.muted != true) } := by
  unfold State.silenced State.lacCut
  rw [cutAttempt_eq, State.setMuted_eq]
  simp only [← State.sentBefore_eq]
  cases s.lac.attempt <;> rfl

/-- MUTED entry in one record (R15, R70, R111, R179). -/
theorem enterMuted_stands (ok : s.HoldsOk) : ∃ slots reservations, s.enterMuted = { s with
    lac := s.lacCut
    sc := { s.sc with station := .muted, muted := true }
    ads := { s.ads with entryPresent := false, mark := s.ads.mark.returned }
    hu.holds := s.holdsLeft, hu.slots := slots
    tv.counter := s.tv.counter + BitVec.ofNat 32 (s.hu.slots.toList.countP Slot.isLive)
    clp.completions := s.clp.completions ++ s.commitsEnded .failed, clp.reservations := reservations
    clp.marks.muted := s.clp.marks.muted || (s.sc.muted != true) } := by
  have ok' : s.silenced.HoldsOk := ok.still (congrArg Hu.holds (silenced_hu s)) (congrArg Hu.slots (silenced_hu s))
    (by rw [silenced_sc]) (congrArg Tv.nodes (silenced_tv s))
  have ended := slotsEnded_muteHolds ok'
  have lac : s.silenced.muteHolds.lac = s.lacCut := (muteHolds_lac _).trans (by rw [silenced_eq])
  refine ⟨s.silenced.muteHolds.hu.slots, s.silenced.muteHolds.clp.reservations, ?_⟩
  have holds := ended.holdsLeft
  have counted := ended.counted
  have completions := ended.commitsEnded
  have stands := ended.stands
  rw [enterMuted_eq]
  generalize s.silenced.muteHolds = v at *
  rw [silenced_eq] at *
  rw [stands, holds, counted, completions, lac]
  rfl

/-- MUTED entry with no slot LIVE (R15, R70, R111, R179). -/
theorem enterMuted_idle (idle : ∀ i : Fin 8, (s.slot i).isLive = false) : ∃ slots, s.enterMuted = { s with
    lac := s.lacCut
    sc := { s.sc with station := .muted, muted := true }
    ads := { s.ads with entryPresent := false, mark := s.ads.mark.returned }
    hu.slots := slots
    clp.marks.muted := s.clp.marks.muted || (s.sc.muted != true) } := by
  obtain ⟨slots, settled⟩ := muteHolds_idle (s := s.silenced) fun i => by
    rw [slot_congr (s := s) (congrArg Hu.slots (silenced_hu s))]
    exact idle i
  refine ⟨slots, ?_⟩
  rw [enterMuted_eq, settled, silenced_eq]
  rfl

/-- The report in a joined station that is not leaving (R178). -/
theorem duplicateReport_joined
    (joined : s.sc.station = .listening ∨ s.sc.station = .announcing ∨ s.sc.station = .operating) : s.duplicateReport =
      if s.sc.station = .operating then s.enterMuted else s.enterMuted.completeJoin .duplicateId := by
  unfold State.duplicateReport
  rcases joined with is | is | is
  · rw [is]
    exact (if_neg nofun).symm
  · rw [is]
    exact (if_neg nofun).symm
  · rw [is]
    exact (if_pos rfl).symm

/-- The whole echo after the attempt was cut ends nothing (R12). -/
theorem exec_echo_idle {c : Instr} {a : Attempt} (running : s.resetHeld = false) (idle : s.lac.attempt = none)
    (succeeds : succeedsBy a c) : exec c s = .next { s with events := s.events + 1 } := by
  rcases succeeds with rfl | rfl
  · rw [exec_event (c := .attemptSucceeded) rfl running]
    refine congrArg _ ?_
    unfold State.matchEcho
    rw [show State.lac { s with events := s.events + 1 } = s.lac from rfl, idle]
  · rw [exec_event (c := .collision _) rfl running]
    exact congrArg _ (judgeEcho_idle (s := { s with events := s.events + 1 }) idle)

theorem dueCheck_sc (s : State) : s.dueCheck.sc = s.sc := (Work.dueCheck s).blocks_of_advert.sc

/-- The second ADVERT of ANNOUNCING leads to OPERATING (R64 step 6, R177). -/
theorem advertSent_second (announcing : s.sc.station = .announcing) (one : s.ads.announceCount = 1) (fresh follows : Bool) :
    (s.advertSent fresh follows).sc = { s.sc with station := .operating, joinWaiting := none } ∧
      (s.advertSent fresh follows).resetHeld = s.resetHeld := by
  have advances : s.advanceSequence.sc = s.sc ∧ s.advanceSequence.ads.announceCount = s.ads.announceCount ∧
      s.advanceSequence.resetHeld = s.resetHeld := by
    unfold State.advanceSequence State.writeOwnSequence
    split <;> exact ⟨rfl, rfl, rfl⟩
  obtain ⟨station, count, held⟩ := advances
  obtain ⟨due, sent, -, -⟩ := freshSent_writes fresh s.advanceSequence
  unfold State.advertSent
  dsimp only
  rw [dueCheck_sc, (Work.dueCheck _).blocks_of_advert.resetHeld, sent, countAnnounced_eq (announced := 2) (enters := true)]
  · refine ⟨?_, held⟩
    show ({ s.advanceSequence.sc with station := .operating, joinWaiting := none } : Sc) = _
    rw [station]
  · show 2 = if s.advanceSequence.sc.station = .announcing then s.advanceSequence.ads.announceCount + 1 else _
    rw [station, count, if_pos announcing, one]
  · show true = decide (s.advanceSequence.sc.station = .announcing ∧ 2 = 2)
    rw [station]
    exact (decide_eq_true ⟨announcing, rfl⟩).symm

theorem exec_secondAdvert {c : Instr} {a : Attempt} {e : Entry} (running : s.resetHeld = false)
    (announcing : s.sc.station = .announcing) (one : s.ads.announceCount = 1) (on : s.lac.attempt = some a)
    (place : a.place = 8) (kind : a.kind = .advert) (succeeds : succeedsBy a c) (entry : s.entry 8 = some e) :
    ∃ t, exec c s = .next t ∧ t.sc.station = .operating ∧ t.sc.joinWaiting = none ∧ t.resetHeld = false := by
  have second (due : Vector (Option Entry) 10) := advertSent_second (s := { s.attemptOver a (8 * (a.frame.length + 4)) with
    lac.due := due }) announcing one a.fresh e.followOn.isSome
  refine ⟨_, exec_advertSent running on place kind succeeds entry, ?_, ?_, (second _).2.trans running⟩
  · rw [(second _).1]
  · rw [(second _).1]

theorem enterMuted_resetHeld (s : State) : s.enterMuted.resetHeld = s.resetHeld := by
  rw [(enterMuted_work s).resetHeld, silenced_eq]

theorem completeJoin_resetHeld (s : State) (status : Status) : (s.completeJoin status).resetHeld = s.resetHeld := by
  rw [completeJoin_eq]

/-- The report is taken: the assembler waits again (R16, R17). -/
def reportTaken (s : State) : State := { s with events := s.events + 1, lac.assembler := .waiting }

theorem exec_duplicate (running : s.resetHeld = false) : exec .duplicateIdentity s = .next s.reportTaken.duplicateReport :=
  exec_event (c := .duplicateIdentity) rfl running

/-- The report in LEAVING ends the LEAVE (R178). -/
theorem duplicateReport_leaving (leaving : s.sc.station = .leaving) : s.duplicateReport = s.enterMuted.finishLeave .duplicateId := by
  unfold State.duplicateReport
  rw [leaving]

theorem duplicateReport_other (other : s.sc.station = .unconfigured ∨ s.sc.station = .identified ∨ s.sc.station = .configured ∨
    s.sc.station = .muted) : s.duplicateReport = s := by
  unfold State.duplicateReport
  rcases other with is | is | is | is <;> rw [is]

end State

open State

/-- Settles O19: the report as the SC takes it, in each station state. -/
theorem duplicateIdentityMutes : Obligations.DuplicateIdentityMutes := by
  unfold Obligations.DuplicateIdentityMutes
  refine ⟨fun s running ok unmuted joined => ?_, fun tag s running agree station waits => ?_, fun s running other => ?_,
    fun c a e s running announcing one on place kind entry succeeds => ?_⟩
  · obtain ⟨slots, reservations, muted⟩ := enterMuted_stands (s := s.reportTaken) (ok.still rfl rfl rfl rfl)
    have slot := enterMuted_slot s.reportTaken
    have marks : (s.clp.marks.muted || (s.sc.muted != true)) = true := by rw [unmuted]; exact Bool.or_true _
    rw [muted] at slot
    have reported := duplicateReport_joined (s := s.reportTaken) joined
    rw [muted] at reported
    by_cases operating : s.sc.station = .operating
    · rw [show s.reportTaken.sc.station = s.sc.station from rfl, if_pos operating] at reported
      rw [if_pos operating, if_pos operating]
      refine ⟨_, (exec_duplicate running).trans (congrArg _ reported), ?_⟩
      refine ⟨rfl, rfl, slot, rfl, rfl, rfl, rfl, rfl, rfl, rfl,
        congrArg (fun b => ({ s.clp.marks with muted := b } : Conditions)) marks, (List.append_nil _).symm, rfl⟩
    · rw [show s.reportTaken.sc.station = s.sc.station from rfl, if_neg operating, completeJoin_eq] at reported
      rw [if_neg operating, if_neg operating]
      refine ⟨_, (exec_duplicate running).trans (congrArg _ reported), ?_⟩
      refine ⟨rfl, rfl, slot, rfl, rfl, rfl, rfl, rfl, rfl, rfl,
        congrArg (fun b => ({ s.clp.marks with muted := b } : Conditions)) marks, rfl, rfl⟩
  · have idle (i : Fin 8) : (s.reportTaken.slot i).isLive = false := agree.noHold (by rw [station]; nofun) i
    have unmuted : s.sc.muted = false := by
      rw [← Bool.not_eq_true, agree.muted, station]
      nofun
    obtain ⟨slots, muted⟩ := enterMuted_idle idle
    have reported := duplicateReport_leaving (s := s.reportTaken) station
    rw [finishLeave_waiting (s := s.reportTaken.enterMuted) (tag := tag) (by rw [muted]; exact waits), muted] at reported
    refine ⟨_, (exec_duplicate running).trans (congrArg _ reported), ?_⟩
    have sc : ({ s.sc with station := .configured, muted := false, riTimer := none, listen := 0, leaveWaiting := none } : Sc) =
        { s.sc with station := .configured, riTimer := none, listen := 0, leaveWaiting := none } := by
      dsimp only
      rw [unmuted]
    exact ⟨sc, rfl, rfl, rfl, rfl, congrArg (fun b => ({ s.clp with
      completions := s.clp.completions ++ [⟨.leave, tag, .duplicateId, .none, false, .none⟩]
      reservations := s.clp.reservations - 1, marks := s.marksLeft b } : Clp)) (Bool.or_true _), rfl⟩
  · exact (exec_duplicate running).trans (congrArg _ (duplicateReport_other (s := s.reportTaken) other))
  · have reported := duplicateReport_joined (s := s.reportTaken) (.inr (.inl announcing))
    rw [if_neg (by rw [show s.reportTaken.sc.station = .announcing from announcing]; nofun)] at reported
    refine ⟨⟨_, (exec_duplicate running).trans (congrArg _ reported), ?_, ?_, ?_⟩, ?_⟩
    · rw [completeJoin_sc, enterMuted_sc]
    · rw [completeJoin_sc]
    · refine exec_echo_idle ?_ ?_ succeeds
      · rw [completeJoin_resetHeld, enterMuted_resetHeld]
        exact running
      · rw [completeJoin_lac, enterMuted_attempt]
    · obtain ⟨t, sent, operating, joined, still⟩ := exec_secondAdvert running announcing one on place kind succeeds entry
      have muted := duplicateReport_joined (s := t.reportTaken) (.inr (.inr operating))
      rw [if_pos (show t.reportTaken.sc.station = .operating from operating)] at muted
      refine ⟨t, _, sent, operating, joined, (exec_duplicate still).trans (congrArg _ muted), ?_⟩
      rw [enterMuted_sc]

end Sys2Proof.Machine

namespace Sys2Proof.Machine

/-! ## LEAVE in LISTENING, ANNOUNCING and OPERATING (R112, R136, R180) -/

namespace State

variable {s t u : State} {tag : Tag} {e : Entry}

/-- The place of a slot after LEAVE settled the slot (R112). -/
def placeLeft (s : State) (i : Fin 8) : Option Entry :=
  if (s.slot i).isLive = false then s.entry (holdPlace i)
  else if s.slotLeft i = .free then (s.withdrawEntry (holdPlace i)).entry (holdPlace i)
  else (s.makeDue (holdPlace i) .release 1).entry (holdPlace i)

/-- A place after LEAVE rests on its slot, its entry, the attempt, the station state and the event's number. -/
theorem placeLeft_congr {i : Fin 8} (slot : t.slot i = s.slot i) (entry : t.entry (holdPlace i) = s.entry (holdPlace i))
    (attempt : t.lac.attempt = s.lac.attempt) (station : t.sc.station = s.sc.station) (events : t.events = s.events) :
    t.placeLeft i = s.placeLeft i := by
  unfold State.placeLeft
  rw [slot, slotLeft_of_eq attempt slot, entry, withdrawEntry_entry, withdrawEntry_entry, entry, onLine_congr attempt,
    makeDue_entry, makeDue_entry, dueEntry_congr entry attempt station events]

theorem Work.events (h : Work outsideBlocks s t) : t.events = s.events :=
  show t.outsideBlocks.events = s.outsideBlocks.events by rw [h.stands]

theorem endHold_entry (s : State) (i : Fin 8) (outcome : HoldOutcome) (x : Slot) (p : Fin 10) :
    (s.endHold i outcome x).entry p = s.entry p := by
  obtain ⟨tv, hu, clp, ends⟩ := endHold_writes s i outcome x
  rw [ends]
  rfl

/-- The release of a slot is due where the hold's end left its place (R112). -/
theorem endHold_makeDue (s : State) (i : Fin 8) (outcome : HoldOutcome) (x : Slot) (p : Fin 10) (k : FrameKind) (c : Fin 3) :
    ((s.endHold i outcome x).makeDue p k c).entry p = (s.makeDue p k c).entry p := by
  obtain ⟨tv, hu, clp, ends⟩ := endHold_writes s i outcome x
  rw [ends, makeDue_entry, makeDue_entry]
  rfl

theorem leaveSlot_entry (s : State) (i : Fin 8) : (s.leaveSlot i).entry (holdPlace i) = s.placeLeft i := by
  unfold State.leaveSlot State.placeLeft
  cases slot : s.slot i with
  | free => exact (if_pos rfl).symm
  | closing => exact (if_pos rfl).symm
  | ended => exact (if_pos rfl).symm
  | live sub n tag =>
    rw [if_neg (by nofun)]
    cases sub with
    | pending c =>
      rw [slotLeft_pending slot]
      dsimp only
      split
      · rw [if_neg nofun, endHold_makeDue]
      · rw [if_pos rfl, endHold_entry]
    | announced | held | committing | committed =>
      rw [slotLeft_live slot nofun, if_neg nofun]
      exact endHold_makeDue ..

theorem leaveSlot_entry_other (s : State) {i : Fin 8} {p : Fin 10} (other : p ≠ holdPlace i) :
    (s.leaveSlot i).entry p = s.entry p := by
  have due {u : State} : (u.makeDue (holdPlace i) .release 1).entry p = u.entry p := by
    rw [State.makeDue_eq, State.entry_setEntry_ne _ _ _ _ other]
  unfold State.leaveSlot
  split
  · split
    · rw [due, endHold_entry]
    · rw [endHold_entry, State.withdrawEntry_eq, State.entry_setEntry_ne _ _ _ _ other]
  · rw [due, endHold_entry]
  · rfl
  · rfl
  · rfl

theorem leaveHolds_entry (s : State) (i : Fin 8) : s.leaveHolds.entry (holdPlace i) = s.placeLeft i := by
  refine (foldl_entry (f := fun s i => s.leaveSlot i) (g := State.placeLeft) leaveSlot_entry (fun s i j ne => ?_) (by decide) s
    i).trans (if_pos (mem_allSlots i))
  have kept : (s.leaveSlot i).entry (holdPlace j) = s.entry (holdPlace j) :=
    leaveSlot_entry_other s fun same => ne (holdPlace_inj same)
  refine ⟨kept, placeLeft_congr ?_ kept ?_ ?_ ?_⟩
  · rw [leaveSlot_slot, if_neg ne]
  · exact (Work.leaveSlot s i).blocks_of_holds.attempt
  · rw [(Work.leaveSlot s i).blocks_of_holds.sc]
  · exact (Work.leaveSlot s i).blocks_of_holds.events

theorem leaveHolds_entry_other {p : Fin 10} (other : ∀ i, p ≠ holdPlace i) (s : State) : s.leaveHolds.entry p = s.entry p :=
  foldl_keeps (P := fun t : State => t.entry p = s.entry p) (fun t before i _ => (leaveSlot_entry_other t (other i)).trans before) rfl

/-- The withdraw ADVERT takes over an ADVERT in place 8, or follows it (R5, R6, R180). -/
theorem dueEntry_withdraw (running : s.sc.station ≠ .muted) (entry : s.entry 8 = some e) (advert : e.kind = .advert) :
    s.dueEntry advertPlace .withdraw 0 = some (if s.onLine 8 then { e with followOn := some (.withdraw, 0), withdrawn := false }
      else { e with kind := .withdraw, cls := 0, attempts := 0, backoffEnd := none }) := by
  have gives : staysDue e.kind .withdraw = false := by rw [advert]; rfl
  have other : e.kind ≠ .withdraw := by rw [advert]; nofun
  have merged : mergeFollowOn e.followOn .withdraw 0 = (.withdraw, 0) := by
    cases e.followOn with
    | none => rfl
    | some f =>
      obtain ⟨k, c⟩ := f
      have outlasts : staysDue k .withdraw = false := by cases k <;> rfl
      by_cases same : k = .withdraw
      · rw [same, mergeFollowOn_same]
        exact congrArg _ (min_eq_right (Fin.zero_le c))
      · exact mergeFollowOn_other outlasts same
  rw [dueEntry_of_entry running (show s.entry advertPlace = some e from entry), become_eq gives, follow_eq gives, if_neg other,
    merged]
  rfl

/-- The SOLICIT is withdrawn and the withdraw ADVERT is due (R180). -/
theorem withdrawDue_writes (s : State) : ∃ due,
    (s.withdrawEntry solicitPlace).makeDue advertPlace .withdraw 0 = { s with lac.due := due } ∧
    State.entry { s with lac.due := due } 8 = s.dueEntry 8 .withdraw 0 ∧
    State.entry { s with lac.due := due } 9 = (s.withdrawEntry 9).entry 9 ∧
    ∀ i, State.entry { s with lac.due := due } (holdPlace i) = s.entry (holdPlace i) := by
  have only (p : Fin 10) : (s.withdrawEntry solicitPlace).entry p = if p = 9 then (s.withdrawEntry 9).entry 9 else s.entry p := by
    by_cases nine : p = 9
    · rw [if_pos nine, nine]
      rfl
    · rw [if_neg nine, State.withdrawEntry_eq, State.entry_setEntry_ne _ _ _ _ (show p ≠ solicitPlace from nine)]
  have due : (s.withdrawEntry solicitPlace).dueEntry advertPlace .withdraw 0 = s.dueEntry 8 .withdraw 0 := by
    refine dueEntry_congr (only 8) ?_ ?_ ?_ _ _ <;> rw [State.withdrawEntry_eq] <;> rfl
  have written := State.makeDue_eq (s := s.withdrawEntry solicitPlace) advertPlace .withdraw 0
  rw [due] at written
  have place (p : Fin 10) : ((s.withdrawEntry solicitPlace).makeDue advertPlace .withdraw 0).entry p =
      if p = 8 then s.dueEntry 8 .withdraw 0 else (s.withdrawEntry solicitPlace).entry p := by
    rw [written, State.entry_setEntry]
    rfl
  have stands : ∃ due, (s.withdrawEntry solicitPlace).makeDue advertPlace .withdraw 0 = { s with lac.due := due } := by
    rw [written, State.withdrawEntry_eq]
    exact ⟨_, rfl⟩
  obtain ⟨due, is⟩ := stands
  rw [is] at place
  refine ⟨due, is, place 8, ?_, fun i => ?_⟩
  · rw [place, if_neg (by decide), only, if_pos rfl]
  · rw [place, if_neg (holdPlace_ne_advert i), only, if_neg (holdPlace_ne_solicit i)]

end State

open State

/-- Settles O16: the completions, the slots and the places one after another. -/
theorem leaveBegins : Obligations.LeaveBegins := by
  unfold Obligations.LeaveBegins
  intro tag s takes ok stations
  have began : s.accepted.ownLeave tag = s.accepted.beginLeave tag := by
    unfold State.ownLeave
    rcases stations with is | is | is <;> rw [State.accepted_sc, is]
  have running : s.sc.station ≠ .muted := by
    rcases stations with is | is | is <;> rw [is] <;> nofun
  have taken := exec_taken (c := .leave tag) rfl takes nofun
  rw [began, beginLeave_eq] at taken
  unfold State.leaves at taken
  rw [completeJoin_eq, flushPaths_eq] at taken
  generalize before : State.mk .. = j at taken
  have ended := slotsEnded_leaveHolds (s := j) (by rw [← before]; exact ok.still rfl rfl rfl rfl)
  obtain ⟨due, made, withdraw, solicit, places⟩ := withdrawDue_writes j.leaveHolds
  have holds := ended.holdsLeft
  have counted := ended.counted
  have completions := ended.commitsEnded
  have stands := ended.stands
  have slots := leaveHolds_slot j
  have hold := leaveHolds_entry j
  have other (p : Fin 10) (apart : ∀ i, p ≠ holdPlace i) := leaveHolds_entry_other apart j
  have sc := (Work.leaveHolds j).blocks_of_holds.sc
  have attempt := (Work.leaveHolds j).blocks_of_holds.attempt
  have events := (Work.leaveHolds j).blocks_of_holds.events
  rw [made, stands] at taken
  generalize j.leaveHolds = l at *
  subst before
  have entry8 : State.entry { l with lac.due := due } 8 = State.dueEntry { s with events := s.events + 1 } 8 .withdraw 0 :=
    withdraw.trans (dueEntry_congr (other 8 fun i same => holdPlace_ne_advert i same.symm) attempt
      (congrArg Sc.station sc) events _ _)
  have entry9 : State.entry { l with lac.due := due } 9 = if s.onLine 9 then
      (s.entry 9).map (fun e => { e with withdrawn := true, followOn := none }) else none := by
    rw [solicit, withdrawEntry_entry, onLine_congr attempt, other 9 fun i same => holdPlace_ne_solicit i same.symm]
    rfl
  refine ⟨_, taken, rfl, rfl, completions, slots, holds, rfl, rfl, rfl,
    congrArg (fun n => ({ s.tv with counter := n } : Tv)) counted, rfl, rfl, rfl, rfl, rfl, rfl, fun i u is => ?_,
    fun off => ?_, fun on => ?_, fun entry => ?_, fun e entry advert off => ?_, fun e entry advert on => ?_⟩
  · rw [is]
    exact (places i).trans ((hold i).trans (placeLeft_congr (s := { s with events := s.events + 1 }) rfl rfl rfl rfl rfl))
  · exact entry9.trans (if_neg (by rw [off]; nofun))
  · exact entry9.trans (if_pos on)
  · refine entry8.trans ?_
    unfold State.dueEntry
    rw [if_neg running, show State.entry { s with events := s.events + 1 } 8 = none from entry]
    rfl
  · refine entry8.trans ((dueEntry_withdraw (s := { s with events := s.events + 1 }) running entry advert).trans ?_)
    exact congrArg some (if_neg (by rw [show State.onLine { s with events := s.events + 1 } 8 = s.onLine 8 from rfl, off]; nofun))
  · refine entry8.trans ((dueEntry_withdraw (s := { s with events := s.events + 1 }) running entry advert).trans ?_)
    exact congrArg some (if_pos on)

end Sys2Proof.Machine

namespace Sys2Proof.Machine

/-! ## The purge of the peers that the tick aged (R34 to R37) -/

/-- A link to a node that is gone is not verified (R33). -/
def LinkRecord.cut (f : Nat → Bool) (l : LinkRecord) : LinkRecord := if f l.toNode then { l with verified := false } else l

theorem LinkRecord.cut_cut (f g : Nat → Bool) (l : LinkRecord) : (l.cut f).cut g = l.cut fun n => f n || g n := by
  unfold LinkRecord.cut
  cases is : f l.toNode <;> cases is' : g l.toNode <;> simp [is, is']

theorem LinkRecord.cut_key (f : Nat → Bool) (l : LinkRecord) : (l.cut f).key = l.key := by
  unfold LinkRecord.cut
  split <;> rfl

namespace State

variable {s t u : State} {f g : Nat → Bool}

/-- The nodes that `f` names are gone from the view, with their links (R35). -/
def nodesGone (f : Nat → Bool) (s : State) : State :=
  { s with
    tv := {
      nodes := s.tv.nodes.filter fun r => !f r.id
      links := (s.tv.links.filter fun l => !f l.key.node).map (LinkRecord.cut f)
      viewIncomplete := s.tv.viewIncomplete && !s.tv.nodes.any fun r => f r.id
      counter := s.tv.counter + BitVec.ofNat 32 (s.tv.nodes.countP fun r => f r.id) }
    clp.marks.viewIncomplete := s.clp.marks.viewIncomplete || (s.tv.viewIncomplete && s.tv.nodes.any fun r => f r.id) }

/-- The nodes that `f` names are gone, with their links and their peer holds (R35, R110). -/
def purgedOf (f : Nat → Bool) (s : State) : State := (s.nodesGone f).peersGone fun h => !h.own && f h.origin

theorem any_or_filter {α : Type} (f g : α → Bool) (l : List α) :
    l.any (fun x => f x || g x) = (l.any f || (l.filter fun x => !f x).any g) := by
  have both := any_or f g (fun _ => true) l
  simpa only [Bool.and_true] using both

theorem nodesGone_nodesGone (f g : Nat → Bool) : (s.nodesGone f).nodesGone g = s.nodesGone fun n => f n || g n := by
  have nodes : (s.tv.nodes.filter fun r => !f r.id).filter (fun r => !g r.id) = s.tv.nodes.filter fun r => !(f r.id || g r.id) := by
    rw [List.filter_filter]
    exact List.filter_congr fun r _ => by rw [Bool.not_or, Bool.and_comm]
  have links : (((s.tv.links.filter fun l => !f l.key.node).map (LinkRecord.cut f)).filter fun l => !g l.key.node).map
      (LinkRecord.cut g) = (s.tv.links.filter fun l => !(f l.key.node || g l.key.node)).map (LinkRecord.cut fun n => f n || g n) := by
    rw [List.filter_map, List.map_map, List.filter_filter]
    have keys : (s.tv.links.filter fun l => ((fun l : LinkRecord => !g l.key.node) ∘ LinkRecord.cut f) l && !f l.key.node) =
        s.tv.links.filter fun l => !(f l.key.node || g l.key.node) :=
      List.filter_congr fun l _ => by rw [Function.comp_apply, LinkRecord.cut_key, Bool.not_or, Bool.and_comm]
    rw [keys]
    exact List.map_congr_left fun l _ => LinkRecord.cut_cut f g l
  have count := countP_or (fun r : NodeRecord => f r.id) (fun r => g r.id) s.tv.nodes
  have gone := any_or_filter (fun r : NodeRecord => f r.id) (fun r => g r.id) s.tv.nodes
  unfold State.nodesGone
  dsimp only
  rw [nodes, links, count, gone, BitVec.ofNat_add, BitVec.add_assoc]
  cases s.tv.viewIncomplete <;> cases s.tv.nodes.any (fun r => f r.id) <;> simp

theorem peersGone_nodesGone (gone : Hold → Bool) (f : Nat → Bool) : (s.peersGone gone).nodesGone f = (s.nodesGone f).peersGone gone := by
  have counter (a b c : BitVec 32) : a + b + c = a + c + b := by rw [BitVec.add_assoc, BitVec.add_comm b, BitVec.add_assoc]
  unfold State.nodesGone State.peersGone
  dsimp only
  rw [counter]

theorem purgedOf_purgedOf (f g : Nat → Bool) : (s.purgedOf f).purgedOf g = s.purgedOf fun n => f n || g n := by
  unfold State.purgedOf
  rw [peersGone_nodesGone, nodesGone_nodesGone, peersGone_peersGone]
  refine peersGone_congr fun h _ => ?_
  cases h.own <;> rfl

theorem purgedOf_congr (same : ∀ n, f n = g n) : s.purgedOf f = s.purgedOf g := by rw [funext same]

theorem purgedOf_none : s.purgedOf (fun _ => false) = s := by
  have nothing : s.nodesGone (fun _ => false) = s := by
    have links : s.tv.links.map (LinkRecord.cut fun _ => false) = s.tv.links := List.map_id' _
    have stays : s.tv.nodes.any (fun _ => false) = false := List.any_eq_false.2 fun _ _ => nofun
    unfold State.nodesGone
    simp [links, stays]
  unfold State.purgedOf
  rw [nothing, peersGone_none fun h _ => Bool.and_false _]

/-- The purge of one known node (R35). -/
theorem purge_purgedOf (nodes : Table.Sorted NodeRecord.id s.tv.nodes) (holds : Table.Sorted Hold.code s.hu.holds)
    {r : NodeRecord} (known : r ∈ s.tv.nodes) : s.purge r.id = s.purgedOf (· == r.id) := by
  have any : s.tv.nodes.any (fun x => x.id == r.id) = true := List.any_eq_true.2 ⟨r, known, beq_self_eq_true _⟩
  have one : s.tv.nodes.countP (fun x => x.id == r.id) = 1 := by
    have ids : (s.tv.nodes.map NodeRecord.id).Nodup := List.Pairwise.map _ (fun _ _ lt => Nat.ne_of_lt lt) nodes
    have once := List.count_eq_one_of_mem ids (List.mem_map_of_mem known)
    rwa [List.count, List.countP_map] at once
  have absent : hasNode (s.tv.nodes.filter fun x => x.id != r.id) r.id = false := by
    rw [← Bool.not_eq_true, hasNode_iff]
    rintro ⟨x, mem, same⟩
    have ne := (List.mem_filter.1 mem).2
    rw [same, bne_self_eq_false] at ne
    cases ne
  have links : (dropLinks r.id s.tv.links).map (fun l => if l.toNode = r.id then { l with verified := false } else l) =
      (s.tv.links.filter fun l => !(l.key.node == r.id)).map (LinkRecord.cut (· == r.id)) :=
    List.map_congr_left fun l _ => by
      unfold LinkRecord.cut
      simp only [beq_iff_eq]
  rw [purge_of_sorted holds r.id _ rfl, reverifiedLinks_purged absent, links]
  unfold State.purgedOf State.nodesGone State.peersGone
  dsimp only
  rw [any, one, BitVec.ofNat_add, ← BitVec.add_assoc]
  simp [bne]

/-- The purge of known nodes one after another. -/
theorem foldl_purge {l : List NodeRecord} (distinct : (l.map NodeRecord.id).Nodup)
    (nodes : Table.Sorted NodeRecord.id s.tv.nodes) (holds : Table.Sorted Hold.code s.hu.holds) (known : ∀ r ∈ l, r ∈ s.tv.nodes) :
    l.foldl (fun s r => s.purge r.id) s = s.purgedOf fun n => l.any fun r => n == r.id := by
  induction l generalizing s with
  | nil => exact purgedOf_none.symm
  | cons r l ih =>
    obtain ⟨fresh, distinct⟩ := List.nodup_cons.1 distinct
    rw [List.foldl_cons, purge_purgedOf nodes holds (known r (.head _)), ih (s := s.purgedOf (· == r.id)) distinct
      (nodes.filter _) (holds.filter _) fun x mem => ?_, purgedOf_purgedOf]
    · rfl
    · refine List.mem_filter.2 ⟨known x (.tail _ mem), ?_⟩
      rw [Bool.not_eq_true', beq_eq_false_iff_ne]
      exact fun same => fresh (same ▸ List.mem_map_of_mem mem)

/-! ### What the tick writes of the view and the holds, in any state -/

/-- `t` differs from `s` in the view, the hold table and their two conditions alone. -/
def Ages (s t : State) : Prop := t = { s with
  tv := t.tv, hu.holds := t.hu.holds, hu.overflow := t.hu.overflow
  clp.marks.viewIncomplete := t.clp.marks.viewIncomplete, clp.marks.overflow := t.clp.marks.overflow }

theorem Ages.trans (first : s.Ages t) (second : t.Ages u) : s.Ages u := by
  unfold State.Ages at *
  rw [second, first]

theorem ages_removeHold (s : State) (code : Nat) : s.Ages (s.removeHold code) := by
  unfold State.removeHold
  split
  · rfl
  · dsimp only
    split
    · rfl
    · rw [State.setOverflow_eq]
      rfl

theorem ages_purge (s : State) (origin : Nat) : s.Ages (s.purge origin) := by
  have unlisted : s.Ages (s.unlisted origin) := rfl
  have holds : (s.unlisted origin).Ages ((s.unlisted origin).removePeerHolds origin) :=
    foldl_keeps (P := fun t : State => (s.unlisted origin).Ages t) (fun t before h _ => before.trans (ages_removeHold t h.code)) rfl
  rw [purge_eq, State.setViewIncomplete_eq]
  refine unlisted.trans (holds.trans ?_)
  rfl

theorem ages_ageView (s : State) : s.Ages s.ageView := by
  unfold State.ageView
  split
  · rfl
  · dsimp only
    refine foldl_keeps (P := fun t : State => s.Ages t) (fun t before r _ => before.trans (ages_purge t r.id)) rfl

/-- A peer record that reaches age 10 is purged (R34, R35). -/
theorem ageView_purged (connected : s.lac.isolated = false) (nodes : Table.Sorted NodeRecord.id s.tv.nodes)
    (holds : Table.Sorted Hold.code s.hu.holds) (purged : Nat → Bool)
    (is : purged = fun n => s.tv.nodes.any fun r => r.id == n && !r.own && decide (9 ≤ r.age)) :
    s.ageView = State.purgedOf purged { s with tv.nodes := s.tv.nodes.map NodeRecord.older } := by
  have id (r : NodeRecord) : r.older.id = r.id := by unfold NodeRecord.older; split <;> rfl
  have sorted : Table.Sorted NodeRecord.id (s.tv.nodes.map NodeRecord.older) :=
    List.pairwise_map.2 (nodes.imp fun lt => by rwa [id, id])
  have ids : ((s.tv.nodes.map NodeRecord.older).map NodeRecord.id).Nodup :=
    List.Pairwise.map _ (fun _ _ lt => Nat.ne_of_lt lt) sorted
  unfold State.ageView
  rw [connected, if_neg Bool.false_ne_true]
  dsimp only
  rw [foldl_purge (s := { s with tv.nodes := s.tv.nodes.map NodeRecord.older }) (ids.sublist (List.filter_sublist.map _)) sorted
    holds fun r mem => (List.mem_filter.1 mem).1, is]
  refine purgedOf_congr fun n => ?_
  rw [List.any_filter, List.any_map]
  refine congrArg (List.any s.tv.nodes) (funext fun r => ?_)
  rw [Function.comp_apply, id, BEq.comm (a := n)]
  unfold NodeRecord.older
  cases own : r.own with
  | true => simp [own]
  | false => simp [Bool.and_comm]

/-! ## The debt, the listen period and the due check at the tick (R57, R59, R65, R175) -/

theorem countListen_eq (s : State) : s.countListen = { s with
    sc.station := if s.sc.station = .listening ∧ s.sc.listen + 1 = s.timing.joinListen then .announcing else s.sc.station
    sc.listen := if s.sc.station = .listening then s.sc.listen + 1 else s.sc.listen } := by
  unfold State.countListen
  by_cases listening : s.sc.station = .listening
  · rw [if_pos listening, if_pos listening]
    dsimp only
    by_cases ends : s.sc.listen + 1 = s.timing.joinListen
    · refine (if_pos ends).trans ?_
      rw [if_pos ⟨listening, ends⟩]
    · refine (if_neg ends).trans ?_
      rw [if_neg fun both => ends both.2]
  · rw [if_neg listening, if_neg listening, if_neg fun both => listening both.1]

theorem tickDebt_eq (s : State) : s.tickDebt = { s with
    ads.debt := if s.sc.station = .listening ∨ s.sc.station = .announcing ∨ s.sc.station = .operating
      then min 8 (s.ads.debt + 1) else s.ads.debt
    ads.postDropWait := if s.sc.station = .announcing ∨ s.sc.station = .operating then false else s.ads.postDropWait } := by
  unfold State.tickDebt
  by_cases listening : s.sc.station = .listening
  · rw [if_pos listening, if_pos (.inl listening), if_neg (by rw [listening]; rintro (is | is) <;> cases is)]
  · by_cases advertises : s.sc.station = .announcing ∨ s.sc.station = .operating
    · rw [if_neg listening, if_pos (advertising_iff.2 advertises), if_pos (.inr advertises), if_pos advertises]
    · rw [if_neg listening, if_neg fun is => advertises (advertising_iff.1 is), if_neg fun is => is.elim listening advertises,
        if_neg advertises]

/-- The debt and the listen period after the tick, in one record (R57, R65, R175). -/
theorem tickCount_eq {st : Station} {debt : Int} {wait : Bool}
    (listens : st = if s.sc.station = .listening ∧ s.sc.listen + 1 = s.timing.joinListen then .announcing else s.sc.station)
    (owes : debt = if s.sc.station = .listening ∨ s.sc.station = .announcing ∨ s.sc.station = .operating
      then min 8 (s.ads.debt + 1) else s.ads.debt)
    (waits : wait = if s.sc.station = .announcing ∨ s.sc.station = .operating then false else s.ads.postDropWait) :
    s.tickDebt.countListen = { s with
      ads.debt := debt, ads.postDropWait := wait
      sc.station := st, sc.listen := if s.sc.station = .listening then s.sc.listen + 1 else s.sc.listen } := by
  rw [countListen_eq, tickDebt_eq, listens, owes, waits]
  rfl

/-- The entry of place 8 is raised to class 0, and its follow-on too (R58, R59). -/
theorem raiseAdvert_writes (s : State) : ∃ e, s.raiseAdvert = s.setEntry 8 e ∧
    e = (s.entry 8).map fun x => { x with cls := 0, followOn := x.followOn.map fun f => (f.1, 0) } := by
  unfold State.raiseAdvert
  rw [show s.entry advertPlace = s.entry 8 from rfl]
  cases entry : s.entry 8 with
  | none =>
    have same := s.setEntry_self 8
    rw [entry] at same
    exact ⟨none, same.symm, rfl⟩
  | some e => exact ⟨_, rfl, rfl⟩

/-- The due check by its cases (R59). -/
theorem dueCheck_writes {done : State} (is : done = s.dueCheck) : ∃ due present,
    done = { s with lac.due := due, ads.entryPresent := present } ∧
    (∀ p, p ≠ 8 → State.entry { s with lac.due := due } p = s.entry p) ∧
    ((s.sc.station ≠ .announcing ∧ s.sc.station ≠ .operating) ∨ s.ads.postDropWait = true →
      State.entry { s with lac.due := due } 8 = s.entry 8 ∧ present = s.ads.entryPresent) ∧
    (s.sc.station = .announcing ∨ s.sc.station = .operating → s.ads.postDropWait = false → s.ads.entryPresent = true →
      present = true ∧ State.entry { s with lac.due := due } 8 = if s.ads.debt = 8 then (s.entry 8).map (fun x =>
        { x with cls := 0, followOn := x.followOn.map (fun f => (f.1, 0)) }) else s.entry 8) ∧
    (s.sc.station = .announcing ∨ s.sc.station = .operating → s.ads.postDropWait = false → s.ads.entryPresent = false →
      ∀ owed, owed = owedClass s.sc.station s.ads.announceCount s.ads.mark s.ads.debt →
      present = owed.isSome ∧ (owed = none → State.entry { s with lac.due := due } 8 = s.entry 8) ∧
      ∀ c, owed = some c → s.advertsOnly → State.entry { s with lac.due := due } 8 = s.advertMade c) := by
  rw [is]
  by_cases quiet : s.advertising = false ∨ s.ads.postDropWait = true
  · have waits : s.dueCheck = s := if_pos (by rw [Bool.or_eq_true, Bool.not_eq_true']; exact quiet)
    have stays : s.sc.station = .announcing ∨ s.sc.station = .operating → s.ads.postDropWait ≠ false := by
      rintro advertises free
      rcases quiet with silent | dropped
      · rw [advertising_iff.2 advertises] at silent
        cases silent
      · rw [free] at dropped
        cases dropped
    exact ⟨s.lac.due, s.ads.entryPresent, waits, fun _ _ => rfl, fun _ => ⟨rfl, rfl⟩, fun on free => absurd free (stays on),
      fun on free => absurd free (stays on)⟩
  · rw [not_or, Bool.not_eq_false, advertising_iff, Bool.not_eq_true] at quiet
    obtain ⟨advertises, free⟩ := quiet
    have idle : ¬((s.sc.station ≠ .announcing ∧ s.sc.station ≠ .operating) ∨ s.ads.postDropWait = true) := by
      rintro (silent | dropped)
      · exact advertises.elim silent.1 silent.2
      · rw [free] at dropped
        cases dropped
    have running : s.sc.station ≠ .muted := by
      rcases advertises with is | is <;> rw [is] <;> nofun
    have passes : ¬(!s.advertising || s.ads.postDropWait) = true := by
      rw [advertising_iff.2 advertises, free]
      nofun
    cases present : s.ads.entryPresent with
    | true =>
      have checks : s.dueCheck = if s.ads.debt = 8 then s.raiseAdvert else s := by
        unfold State.dueCheck
        rw [if_neg passes, if_pos present]
      obtain ⟨e, raised, urgent⟩ := raiseAdvert_writes s
      have kept (due : Vector (Option Entry) 10) :
          ({ s with lac.due := due, ads.entryPresent := true } : State) = { s with lac.due := due } := by rw [← present]
      by_cases full : s.ads.debt = 8
      · refine ⟨(s.setEntry 8 e).lac.due, true, ?_, fun p other => ?_, fun is => absurd is idle, fun _ _ _ => ⟨rfl, ?_⟩, nofun⟩
        · rw [checks, if_pos full, raised, kept]
          rfl
        · exact State.entry_setEntry_ne s 8 p _ other
        · rw [if_pos full, ← urgent]
          exact State.entry_setEntry_self (s := s) 8 e
      · refine ⟨s.lac.due, true, ?_, fun _ _ => rfl, fun is => absurd is idle, fun _ _ _ => ⟨rfl, ?_⟩, nofun⟩
        · rw [checks, if_neg full, kept]
        · rw [if_neg full]
    | false =>
      have checks : s.dueCheck = match owedClass s.sc.station s.ads.announceCount s.ads.mark s.ads.debt with
          | some c => s.makeAdvertDue c
          | none => s := by
        unfold State.dueCheck
        rw [if_neg passes, if_neg (by rw [present]; nofun)]
        rfl
      cases owes : owedClass s.sc.station s.ads.announceCount s.ads.mark s.ads.debt with
      | none =>
        rw [owes] at checks
        refine ⟨s.lac.due, false, checks.trans (by rw [← present]), fun _ _ => rfl, fun is => absurd is idle, nofun, fun _ _ _ owed is => ?_⟩
        rw [is]
        exact ⟨rfl, fun _ => rfl, nofun⟩
      | some c =>
        rw [owes] at checks
        refine ⟨(s.setEntry 8 (s.dueEntry advertPlace .advert c)).lac.due, true, ?_, fun p other => ?_, fun is => absurd is idle,
          nofun, fun _ _ _ owed is => ?_⟩
        · refine checks.trans (show s.makeAdvertDue c = _ from ?_)
          unfold State.makeAdvertDue
          rw [State.makeDue_eq]
          rfl
        · exact State.entry_setEntry_ne s 8 p _ other
        · rw [is]
          refine ⟨rfl, nofun, fun c' same only => ?_⟩
          rw [← Option.some.inj same, ← dueEntry_advert running only]
          exact State.entry_setEntry_self (s := s) 8 _

/-- An RI tick up to its due check, in one record (R7, R34, R57, R65, R175). -/
theorem tickBlocks_eq {st : Station} {debt : Int} {wait : Bool} {w : State} {budget : Nat} (full : budget = s.fullBudget)
    (aged : w = State.ageView { s with lac.budget := budget })
    (listens : st = if s.sc.station = .listening ∧ s.sc.listen + 1 = s.timing.joinListen then .announcing else s.sc.station)
    (owes : debt = if s.sc.station = .listening ∨ s.sc.station = .announcing ∨ s.sc.station = .operating
      then min 8 (s.ads.debt + 1) else s.ads.debt)
    (waits : wait = if s.sc.station = .announcing ∨ s.sc.station = .operating then false else s.ads.postDropWait) :
    s.tickBlocks = State.dueCheck { s with
      lac.budget := budget
      tv := w.tv, hu.holds := w.hu.holds, hu.overflow := w.hu.overflow
      clp.marks.viewIncomplete := w.clp.marks.viewIncomplete, clp.marks.overflow := w.clp.marks.overflow
      ads.debt := debt, ads.postDropWait := wait
      sc.station := st, sc.listen := if s.sc.station = .listening then s.sc.listen + 1 else s.sc.listen } := by
  have ages := ages_ageView { s with lac.budget := budget }
  rw [← aged] at ages
  unfold State.tickBlocks
  rw [← full, ← aged]
  refine congrArg State.dueCheck ((tickCount_eq (s := w) (st := st) (debt := debt) (wait := wait) ?_ ?_ ?_).trans ?_)
  all_goals rw [ages]
  · exact listens
  · exact owes
  · exact waits

/-- Time moves the clock, the timers and the lifetimes on, and nothing else (R1, R9, R18, R88, R93, R173). -/
theorem elapse_writes (s : State) (dt : Nat) : ∃ idle watch timer slots f, s.elapse dt = { s with
      now := s.now + dt, lac.idle := idle, lac.watch := watch, sc.riTimer := timer, hu.slots := slots
      hu.holds := s.hu.holds.map f } ∧ ∀ h : Hold, f h = { h with lifetime := (f h).lifetime } := by
  refine ⟨_, _, _, _, _, rfl, fun h => ?_⟩
  split <;> rfl

end State

open State

/-- Settles O22: the view ages, the debt and the listen period move on, and the due check ends the tick. -/
theorem riTickReachesEveryBlock : Obligations.RiTickReachesEveryBlock := by
  unfold Obligations.RiTickReachesEveryBlock
  refine ⟨fun s running stopped => ?_, fun e st debt wait u s running ticking listens owes waits is => ?_⟩
  · rw [exec_event (c := .riTick) rfl running]
    exact congrArg _ (riTicks_stopped (s := { s with events := s.events + 1 }) stopped)
  have limit : State.riBits { s with events := s.events + 1 } = s.timing.ri * 1000000 := by
    unfold State.riBits bitsPerSecond
    rfl
  have taken : exec .riTick s = .next (State.tickBlocks { u with sc.riTimer := some 0 }) := by
    rw [exec_event (c := .riTick) rfl running, riTicks_running (s := { s with events := s.events + 1 }) ticking, limit, ← is]
  obtain ⟨dt, left⟩ : ∃ dt, dt = s.timing.ri * 1000000 - e := ⟨_, rfl⟩
  rw [← left] at is ⊢
  obtain ⟨idle, watch, timer, slots, f, elapsed, lifetimes⟩ := elapse_writes { s with events := s.events + 1 } dt
  rw [elapsed] at is
  have full : s.timing.budget * 16 = State.fullBudget { u with sc.riTimer := some 0 } := by
    have timing : s.timing = u.timing := by rw [is]; rfl
    rw [timing]
    rfl
  have purge := ageView_purged (s := { u with sc.riTimer := some 0, lac.budget := s.timing.budget * 16 })
  generalize w_is : State.ageView { u with sc.riTimer := some 0, lac.budget := s.timing.budget * 16 } = w at purge
  have sorted (ok : s.HoldsOk) : Table.Sorted Hold.code u.hu.holds := by
    rw [is, ← elapsed]
    exact (HoldsOk.elapse (s := { s with events := s.events + 1 }) dt (ok.still rfl rfl rfl rfl)).sorted
  subst is
  obtain ⟨due, present, checked, others, quiet, standing, owing⟩ := dueCheck_writes
    (tickBlocks_eq (st := st) (debt := debt) (wait := wait) full w_is.symm listens owes waits)
  refine ⟨_, taken.trans (congrArg Host.Outcome.next checked), rfl, rfl, rfl, rfl, others, quiet, standing, fun on free absent owed is => ?_, fun isolated => ?_,
    fun connected form ok purged goes isPurged isGoes => ?_, rfl, rfl, rfl⟩
  · obtain ⟨made, idle, fresh⟩ := owing on free absent owed is
    exact ⟨made, idle, fun c owes only => (fresh c owes only).trans (advertMade_congr rfl rfl rfl c)⟩
  · have same := w_is.symm.trans (if_pos isolated)
    rw [same]
    exact ⟨rfl, rfl, rfl⟩
  · have aged := purge connected form.nodesSorted (sorted ok) purged isPurged
    have id (r : NodeRecord) : r.older.id = r.id := by unfold NodeRecord.older; split <;> rfl
    have nodes : (s.tv.nodes.map NodeRecord.older).filter (fun r => !purged r.id) =
        (s.tv.nodes.filter fun r => !purged r.id).map NodeRecord.older := by
      rw [List.filter_map]
      exact congrArg (List.map _) (List.filter_congr fun r _ => by rw [Function.comp_apply, id])
    have known : (s.tv.nodes.map NodeRecord.older).any (fun r => purged r.id) = s.tv.nodes.any fun r => purged r.id := by
      rw [List.any_map]
      exact congrArg (List.any s.tv.nodes) (funext fun r => by rw [Function.comp_apply, id])
    have records : (s.tv.nodes.map NodeRecord.older).countP (fun r => purged r.id) = s.tv.nodes.countP fun r => purged r.id := by
      rw [List.countP_map]
      exact List.countP_congr fun r _ => by rw [Function.comp_apply, id]
    have same (h : Hold) : goes (f h) = goes h := by rw [isGoes, lifetimes]
    have peers : (s.hu.holds.map f).any goes = s.hu.holds.any goes := by
      rw [List.any_map]
      exact congrArg (List.any s.hu.holds) (funext same)
    have holds : (s.hu.holds.map f).countP goes = s.hu.holds.countP goes := by
      rw [List.countP_map]
      exact List.countP_congr fun h _ => by rw [Function.comp_apply, same]
    have total : s.tv.counter + BitVec.ofNat 32 (s.tv.nodes.countP (fun r => purged r.id) + s.hu.holds.countP goes) =
        s.tv.counter + BitVec.ofNat 32 ((s.tv.nodes.map NodeRecord.older).countP fun r => purged r.id) +
          BitVec.ofNat 32 ((s.hu.holds.map f).countP goes) := by
      rw [records, holds, BitVec.ofNat_add, BitVec.add_assoc]
    rw [isGoes] at peers total
    rw [aged, isGoes]
    refine ⟨?_, rfl, ?_, ?_, ?_⟩
    · exact Tv.mk.injEq .. ▸ ⟨nodes, rfl, congrArg (fun b => s.tv.viewIncomplete && !b) known, total.symm⟩
    · exact congrArg (fun b => s.hu.overflow && !b) peers
    · exact congrArg (fun b => s.clp.marks.viewIncomplete || (s.tv.viewIncomplete && b)) known
    · exact congrArg (fun b => s.clp.marks.overflow || (s.hu.overflow && b)) peers

end Sys2Proof.Machine

namespace Sys2Proof.Machine

/-! ## Bytes, and the bodies that are read back (section 11.2) -/

theorem length_bigEndian (k n : Nat) : (bigEndian k n).length = k := by
  induction k with
  | zero => rfl
  | succ k ih => rw [bigEndian, List.length_cons, ih]

theorem foldl_bigEndian (k n a : Nat) :
    (bigEndian k n).foldl (fun a (b : Byte) => a * 256 + b.toNat) a = a * 256 ^ k + n % 256 ^ k := by
  induction k generalizing a with
  | zero => rw [bigEndian, List.foldl_nil, Nat.pow_zero, Nat.mod_one, Nat.mul_one, Nat.add_zero]
  | succ k ih =>
    have top : n % 256 ^ (k + 1) = n % 256 ^ k + 256 ^ k * (n / 256 ^ k % 256) := Nat.mod_pow_succ
    have byte : (BitVec.ofNat 8 (n / 256 ^ k)).toNat = n / 256 ^ k % 256 := BitVec.toNat_ofNat ..
    rw [bigEndian, List.foldl_cons, ih, byte, top]
    ring

/-- A number that fits its bytes is read back from them. -/
theorem ofBytes_bigEndian {k n : Nat} (fits : n < 256 ^ k) : ofBytes (bigEndian k n) = n := by
  rw [ofBytes, foldl_bigEndian, Nat.zero_mul, Nat.zero_add, Nat.mod_eq_of_lt fits]

/-! ### Hold bodies (R187) -/

theorem LinkKey.length_bytes (k : LinkKey) : k.bytes.length = 3 := rfl

theorem LinkKey.length_flatMap_bytes (ks : List LinkKey) : (ks.flatMap LinkKey.bytes).length = 3 * ks.length := by
  induction ks with
  | nil => rfl
  | cons k ks ih => rw [List.flatMap_cons, List.length_append, LinkKey.length_bytes, ih, List.length_cons]; omega

theorem readLinkKeys_bytes {ks : List LinkKey} (fit : ∀ k ∈ ks, k.node < 65536 ∧ k.port < 256) :
    readLinkKeys ks.length (ks.flatMap LinkKey.bytes) = ks := by
  induction ks with
  | nil => rfl
  | cons k ks ih =>
    obtain ⟨node, port⟩ := fit k (.head _)
    have first : field (k.bytes ++ ks.flatMap LinkKey.bytes) 0 2 = k.node := ofBytes_bigEndian (k := 2) node
    have second : field (k.bytes ++ ks.flatMap LinkKey.bytes) 2 1 = k.port := ofBytes_bigEndian (k := 1) port
    rw [List.flatMap_cons, List.length_cons, readLinkKeys, List.drop_left' k.length_bytes, ih fun k mem => fit k (.tail _ mem),
      first, second]

/-- A hold body within the limits of a hold is read back (R104, R187). -/
theorem readHoldBody_bytes {b : HoldBody} (priority : b.priority ≤ 3) (least : 1 ≤ b.width) (most : b.width ≤ 8)
    (window : b.start + b.width ≤ 64) (some_link : b.links ≠ []) (links : b.links.length ≤ 16) (distinct : b.links.Nodup)
    (valid : ∀ k ∈ b.links, 1 ≤ k.node ∧ k.node ≤ 65534 ∧ k.port ≤ 15) : readHoldBody b.bytes = some b := by
  have keys := readLinkKeys_bytes (ks := b.links) fun k mem => by
    obtain ⟨-, node, port⟩ := valid k mem
    omega
  have length : b.bytes.length = 7 + 3 * b.links.length := by
    rw [← LinkKey.length_flatMap_bytes, Nat.add_comm]
    rfl
  have count : field b.bytes 5 2 = b.links.length := ofBytes_bigEndian (k := 2) (by omega)
  have start : field b.bytes 3 1 = b.start := ofBytes_bigEndian (k := 1) (by omega)
  have width : field b.bytes 4 1 = b.width := ofBytes_bigEndian (k := 1) (by omega)
  have level : field b.bytes 1 1 = b.priority := ofBytes_bigEndian (k := 1) (by omega)
  have flag : (BitVec.ofNat 8 (field b.bytes 2 1)).getLsbD 0 = b.committed := by
    show (BitVec.ofNat 8 (ofBytes (flagByte b.committed))).getLsbD 0 = b.committed
    cases b.committed <;> rfl
  have tail : b.bytes.drop 7 = b.links.flatMap LinkKey.bytes := rfl
  have sound : b.links.all LinkKey.valid = true := List.all_eq_true.2 fun k mem => by
    obtain ⟨low, high, port⟩ := valid k mem
    rw [LinkKey.valid, validNode, decide_eq_true low, decide_eq_true high, decide_eq_true port]
    rfl
  have one : 1 ≤ b.links.length := List.length_pos_of_ne_nil some_link
  unfold readHoldBody
  dsimp only
  rw [count, start, width, level, flag, tail, keys, if_pos ⟨by omega, length, one, links, least, most, window, priority, sound,
    distinct⟩]
  rfl

/-! ### ADVERT bodies (R186) -/

theorem LinkEntry.length_bytes (e : LinkEntry) : e.bytes.length = 18 := rfl

theorem LinkEntry.length_flatMap_bytes (es : List LinkEntry) : (es.flatMap LinkEntry.bytes).length = 18 * es.length := by
  induction es with
  | nil => rfl
  | cons e es ih => rw [List.flatMap_cons, List.length_append, LinkEntry.length_bytes, ih, List.length_cons]; omega

theorem readLinkEntry_bytes {e : LinkEntry} (fromPort : e.fromPort ≤ 255) (toNode : e.toNode ≤ 65535) (toPort : e.toPort ≤ 255)
    (cost : e.cost ≤ 65535) (noise : e.noise ≤ 65535) (low : -32768 ≤ e.dispersion) (high : e.dispersion ≤ 32767) :
    readLinkEntry e.bytes = e := by
  have f1 : field e.bytes 0 1 = e.fromPort := ofBytes_bigEndian (k := 1) (by omega)
  have f2 : field e.bytes 1 2 = e.toNode := ofBytes_bigEndian (k := 2) (by omega)
  have f3 : field e.bytes 3 1 = e.toPort := ofBytes_bigEndian (k := 1) (by omega)
  have f4 : field e.bytes 4 2 = e.cost := ofBytes_bigEndian (k := 2) (by omega)
  have f5 : field e.bytes 6 2 = e.noise := ofBytes_bigEndian (k := 2) (by omega)
  have f6 : field e.bytes 8 2 = (BitVec.ofInt 16 e.dispersion).toNat := ofBytes_bigEndian (k := 2) (BitVec.isLt _)
  have f7 : field e.bytes 10 8 = e.used.toNat := ofBytes_bigEndian (k := 8) e.used.isLt
  have signed : (BitVec.ofInt 16 e.dispersion).toInt = e.dispersion := by
    rw [BitVec.toInt_ofInt]
    exact Int.bmod_eq_of_le (by omega) (by omega)
  rw [readLinkEntry, signedField, f1, f2, f3, f4, f5, f6, f7, BitVec.ofNat_toNat, BitVec.ofNat_toNat, BitVec.setWidth_eq,
    BitVec.setWidth_eq, signed]

theorem readLinkEntries_bytes {es : List LinkEntry} (fit : ∀ e ∈ es, readLinkEntry e.bytes = e) :
    readLinkEntries es.length (es.flatMap LinkEntry.bytes) = es := by
  induction es with
  | nil => rfl
  | cons e es ih =>
    rw [List.flatMap_cons, List.length_cons, readLinkEntries, List.take_left' e.length_bytes, List.drop_left' e.length_bytes,
      ih fun e mem => fit e (.tail _ mem), fit e (.head _)]

theorem advertFlags_bits (fresh withdraw transit : Bool) :
    (BitVec.ofNat 16 (advertFlags fresh withdraw transit)).getLsbD 0 = fresh ∧
    (BitVec.ofNat 16 (advertFlags fresh withdraw transit)).getLsbD 1 = withdraw ∧
    (BitVec.ofNat 16 (advertFlags fresh withdraw transit)).getLsbD 2 = transit := by
  revert fresh withdraw transit
  decide

/-- An ADVERT body within its fields is read back (R25, R186). -/
theorem readAdvert_bytes {a : Advert} (profile : a.profile ≤ 15) (entries : a.entries.length ≤ 16)
    (fit : ∀ e ∈ a.entries, readLinkEntry e.bytes = e) : readAdvert a.bytes = some a := by
  have length : a.bytes.length = 12 + 18 * a.entries.length := by
    rw [← LinkEntry.length_flatMap_bytes, Nat.add_comm]
    rfl
  have flagged : advertFlags a.fresh a.withdraw a.transit < 256 ^ 2 := by
    generalize a.fresh = f, a.withdraw = w, a.transit = t
    revert f w t
    decide
  have sequence : field a.bytes 0 2 = a.sequence.toNat := ofBytes_bigEndian (k := 2) a.sequence.isLt
  have flags : field a.bytes 2 2 = advertFlags a.fresh a.withdraw a.transit := ofBytes_bigEndian (k := 2) flagged
  have policy : field a.bytes 4 2 = a.profile := ofBytes_bigEndian (k := 2) (by omega)
  have count : field a.bytes 6 2 = a.entries.length := ofBytes_bigEndian (k := 2) (by omega)
  have tail : a.bytes.drop 12 = a.entries.flatMap LinkEntry.bytes := rfl
  obtain ⟨fresh, withdraw, transit⟩ := advertFlags_bits a.fresh a.withdraw a.transit
  unfold readAdvert
  dsimp only
  rw [sequence, flags, policy, count, tail, readLinkEntries_bytes fit, fresh, withdraw, transit, BitVec.ofNat_toNat,
    BitVec.setWidth_eq, if_pos ⟨by omega, entries, length, profile⟩]

/-- Settles O60. -/
theorem bodiesReadBack : Obligations.BodiesReadBack := by
  unfold Obligations.BodiesReadBack
  refine ⟨fun b priority least most window some_link links distinct valid =>
    readHoldBody_bytes priority least most window some_link links distinct valid, fun a profile entries fit =>
    readAdvert_bytes profile entries fun e mem => ?_⟩
  obtain ⟨fromPort, toNode, toPort, cost, noise, low, high⟩ := fit e mem
  exact readLinkEntry_bytes fromPort toNode toPort cost noise low high

end Sys2Proof.Machine

namespace Sys2Proof.Machine

/-! ## Frames that are read back (R2, R16, R184, R185) -/

/-- The kind a received frame is dispatched by: an ADVERT's withdraw flag stands in its body. -/
def FrameKind.dispatched (k : FrameKind) : FrameKind := if k = .withdraw then .advert else k

theorem frameKindOf_code (k : FrameKind) : frameKindOf k.code = some k.dispatched := by cases k <;> rfl

theorem length_frameContent (kind : FrameKind) (origin : Nat) (body : List Byte) :
    (frameContent kind origin body).length = 5 + body.length := Nat.add_comm body.length 5

theorem length_frameBytes (kind : FrameKind) (origin : Nat) (body : List Byte) :
    (frameBytes kind origin body).length = 5 + body.length + 2 := by
  rw [frameBytes, List.length_append, length_frameContent, length_bigEndian]

/-- The frame that the LAC builds is judged good (R2, R16). -/
theorem judgeFrame_frameBytes {kind : FrameKind} {origin : Nat} {body : List Byte} (low : 1 ≤ origin) (high : origin ≤ 65534)
    (short : body.length ≤ 512) :
    judgeFrame (frameBytes kind origin body) .endDelimiter = some (kind.dispatched, origin, body) := by
  have node : field (frameBytes kind origin body) 1 2 = origin := ofBytes_bigEndian (k := 2) (by omega)
  have size : field (frameBytes kind origin body) 3 2 = body.length := ofBytes_bigEndian (k := 2) (by omega)
  have content : (frameBytes kind origin body).take (5 + body.length) = frameContent kind origin body :=
    List.take_left' (length_frameContent kind origin body)
  have check : field (frameBytes kind origin body) (5 + body.length) 2 = (crc16 (frameContent kind origin body)).toNat := by
    rw [field, frameBytes, List.drop_left' (length_frameContent kind origin body),
      List.take_of_length_le (Nat.le_of_eq (length_bigEndian 2 _)), ofBytes_bigEndian (BitVec.isLt _)]
  have inner : ((frameBytes kind origin body).drop 5).take body.length = body := List.take_left
  have valid : validNode origin = true := by
    rw [validNode, decide_eq_true low, decide_eq_true high]
    rfl
  have length := length_frameBytes kind origin body
  unfold judgeFrame
  dsimp only
  rw [size, node, inner, content, if_pos ⟨rfl, by omega, short, length, check, valid⟩]
  show (frameKindOf kind.code).map _ = _
  rw [frameKindOf_code]
  rfl

/-- A frame that did not end with an end delimiter is dropped (R16). -/
theorem judgeEnded_cut {bits : List Bool} {ending : FrameEnd} (cut : ending ≠ .endDelimiter) : judgeEnded (bits, ending) = none := by
  refine Option.bind_eq_none_iff.2 fun received _ => ?_
  unfold judgeFrame
  dsimp only
  exact if_neg fun good => cut good.1

/-! ### Data bits -/

/-- The data bits of a byte, bit 7 first. -/
def byteBools (b : Byte) : List Bool :=
  [b.getLsbD 7, b.getLsbD 6, b.getLsbD 5, b.getLsbD 4, b.getLsbD 3, b.getLsbD 2, b.getLsbD 1, b.getLsbD 0]

theorem byteBits_eq (b : Byte) : byteBits b = (byteBools b).map LineBit.data := rfl

theorem bytesOf_byteBools (l : List Byte) : bytesOf (l.flatMap byteBools) = some l := by
  induction l with
  | nil => rfl
  | cons b l ih =>
    have byte : BitVec.ofNat 8 (128 * (b.getLsbD 7).toNat + 64 * (b.getLsbD 6).toNat + 32 * (b.getLsbD 5).toNat +
        16 * (b.getLsbD 4).toNat + 8 * (b.getLsbD 3).toNat + 4 * (b.getLsbD 2).toNat + 2 * (b.getLsbD 1).toNat +
        (b.getLsbD 0).toNat) = b := by
      revert b
      decide
    show (bytesOf (l.flatMap byteBools)).map _ = _
    rw [ih, Option.map_some, byte]

theorem length_byteBools (l : List Byte) : (l.flatMap byteBools).length = 8 * l.length := by
  induction l with
  | nil => rfl
  | cons b l ih => rw [List.flatMap_cons, List.length_append, ih, List.length_cons]; show 8 + _ = _; omega

theorem flatMap_byteBits (l : List Byte) : l.flatMap byteBits = (l.flatMap byteBools).map LineBit.data := by
  induction l with
  | nil => rfl
  | cons b l ih => rw [List.flatMap_cons, List.flatMap_cons, List.map_append, ih, byteBits_eq]

/-- Data bits inside a frame are collected while there is room (R16). -/
theorem Assembler.collects {ds bits : List Bool} (room : bits.length + ds.length ≤ 8 * collectedBytes) :
    Assembler.after ⟨some bits, []⟩ (ds.map LineBit.data) = ⟨some (bits ++ ds), []⟩ ∧
      Assembler.ended ⟨some bits, []⟩ (ds.map LineBit.data) = [] := by
  induction ds generalizing bits with
  | nil => exact ⟨by rw [List.append_nil]; rfl, rfl⟩
  | cons d ds ih =>
    rw [List.length_cons] at room
    have one := Assembler.take_inside bits d (by omega)
    obtain ⟨after, ended⟩ := ih (bits := bits ++ [d]) (by rw [List.length_append, List.length_singleton]; omega)
    rw [List.append_assoc] at after
    rw [List.map_cons]
    refine ⟨?_, ?_⟩
    · show Assembler.after (Assembler.take ⟨some bits, []⟩ (.data d)).1 _ = _
      rw [one]
      exact after
    · show (Assembler.take ⟨some bits, []⟩ (.data d)).2.toList ++ Assembler.ended (Assembler.take ⟨some bits, []⟩ (.data d)).1 _ = _
      rw [one]
      exact ended

/-! ### Groups of eight bit times -/

theorem Assembler.take_short {frame : Option (List Bool)} {g : List LineBit} (begun : g ≠ []) (short : g.length + 1 < 8) (b : LineBit) :
    Assembler.take ⟨frame, g⟩ b = (⟨frame, g ++ [b]⟩, none) := by
  cases g with
  | nil => exact absurd rfl begun
  | cons x g => exact if_pos short

theorem Assembler.take_full {frame : Option (List Bool)} {g : List LineBit} (begun : g ≠ []) (full : 8 ≤ g.length + 1) (b : LineBit) :
    Assembler.take ⟨frame, g⟩ b = Assembler.endGroup ⟨frame, []⟩ (groupEnds (g ++ [b])) := by
  cases g with
  | nil => exact absurd rfl begun
  | cons x g => exact if_neg (Nat.not_lt.2 full)

/-- The bit times that fill a begun group end it (R185). -/
theorem Assembler.fills {frame : Option (List Bool)} {g rest : List LineBit} (begun : g ≠ []) (more : rest ≠ [])
    (eight : g.length + rest.length = 8) :
    Assembler.after ⟨frame, g⟩ rest = (Assembler.endGroup ⟨frame, []⟩ (groupEnds (g ++ rest))).1 ∧
      Assembler.ended ⟨frame, g⟩ rest = (frame.map fun bits => (bits, groupEnds (g ++ rest))).toList := by
  induction rest generalizing g with
  | nil => exact absurd rfl more
  | cons b rest ih =>
    rw [List.length_cons] at eight
    have stepped : Assembler.after ⟨frame, g⟩ (b :: rest) = Assembler.after (Assembler.take ⟨frame, g⟩ b).1 rest ∧
        Assembler.ended ⟨frame, g⟩ (b :: rest) =
          (Assembler.take ⟨frame, g⟩ b).2.toList ++ Assembler.ended (Assembler.take ⟨frame, g⟩ b).1 rest := ⟨rfl, rfl⟩
    rw [stepped.1, stepped.2]
    by_cases last : rest = []
    · rw [last, List.length_nil] at eight
      rw [last, Assembler.take_full begun (by omega)]
      exact ⟨rfl, List.append_nil _⟩
    · have room : 0 < rest.length := List.length_pos_of_ne_nil last
      rw [Assembler.take_short begun (by omega), List.append_cons g b rest]
      exact ih (g := g ++ [b]) (by simp) last (by rw [List.length_append, List.length_singleton]; omega)

/-- A group that begins with a code violation does what its eight bit times say (R185). -/
theorem Assembler.takes_group {frame : Option (List Bool)} {group : List LineBit} {first : LineBit} {rest : List LineBit}
    (is : group = first :: rest) (violates : ∀ d, first ≠ .data d) (eight : group.length = 8) :
    Assembler.after ⟨frame, []⟩ group = (Assembler.endGroup ⟨frame, []⟩ (groupEnds group)).1 ∧
      Assembler.ended ⟨frame, []⟩ group = (frame.map fun bits => (bits, groupEnds group)).toList := by
  subst is
  rw [List.length_cons] at eight
  have begun : Assembler.take ⟨frame, []⟩ first = (⟨frame, [first]⟩, none) := by
    cases first with
    | data d => exact absurd rfl (violates d)
    | j | k => rfl
  have stepped : Assembler.after ⟨frame, []⟩ (first :: rest) = Assembler.after (Assembler.take ⟨frame, []⟩ first).1 rest ∧
      Assembler.ended ⟨frame, []⟩ (first :: rest) =
        (Assembler.take ⟨frame, []⟩ first).2.toList ++ Assembler.ended (Assembler.take ⟨frame, []⟩ first).1 rest := ⟨rfl, rfl⟩
  rw [stepped.1, stepped.2, begun]
  exact Assembler.fills (List.cons_ne_nil _ _) (by rintro rfl; cases eight) (by rw [List.length_singleton]; omega)

/-- Data bits outside a frame are ignored (R185). -/
theorem Assembler.ignores (ds : List Bool) :
    Assembler.waiting.after (ds.map LineBit.data) = .waiting ∧ Assembler.waiting.ended (ds.map LineBit.data) = [] := by
  induction ds with
  | nil => exact ⟨rfl, rfl⟩
  | cons d ds ih => exact ih

/-- The line bits of a frame, taken by a waiting assembler, end that frame alone (R2, R16). -/
theorem Assembler.takes_lineRun {frame : List Byte} (fits : frame.length ≤ collectedBytes) :
    Assembler.waiting.after (lineRun frame) = .waiting ∧
      Assembler.waiting.ended (lineRun frame) = [(frame.flatMap byteBools, .endDelimiter)] := by
  have ignored := Assembler.ignores (List.replicate 8 [true, false]).flatten
  rw [show (List.replicate 8 [true, false]).flatten.map LineBit.data = preamble from rfl] at ignored
  have started : Assembler.waiting.after startDelimiter = ⟨some [], []⟩ ∧ Assembler.waiting.ended startDelimiter = [] :=
    Assembler.takes_group (frame := none) rfl nofun rfl
  have collected := Assembler.collects (ds := frame.flatMap byteBools) (bits := []) (by
    rw [length_byteBools, List.length_nil]
    omega)
  have closed := Assembler.takes_group (frame := some (frame.flatMap byteBools)) (group := endDelimiter) rfl nofun rfl
  rw [List.nil_append] at collected
  rw [show groupEnds endDelimiter = .endDelimiter from rfl] at closed
  rw [lineRun, flatMap_byteBits]
  simp only [Assembler.after_append, Assembler.ended_append, ignored.1, ignored.2, started.1, started.2, collected.1, collected.2,
    closed.1, closed.2]
  exact ⟨rfl, rfl⟩

/-- The line bits of the frame that the LAC builds end one good frame (R2, R16). -/
theorem Assembler.takes_frame {kind : FrameKind} {origin : Nat} {body : List Byte} (low : 1 ≤ origin) (high : origin ≤ 65534)
    (short : body.length ≤ 512) : Assembler.waiting.after (lineRun (frameBytes kind origin body)) = .waiting ∧
      (Assembler.waiting.ended (lineRun (frameBytes kind origin body))).filterMap judgeEnded = [(kind.dispatched, origin, body)] := by
  obtain ⟨after, ended⟩ := Assembler.takes_lineRun (frame := frameBytes kind origin body) (by
    rw [length_frameBytes, collectedBytes]
    omega)
  have judged : judgeEnded ((frameBytes kind origin body).flatMap byteBools, .endDelimiter) =
      some (kind.dispatched, origin, body) := by
    rw [judgeEnded, bytesOf_byteBools]
    exact judgeFrame_frameBytes low high short
  refine ⟨after, ?_⟩
  rw [ended, List.filterMap_cons, judged]
  rfl

/-! ### The row of a dropped frame (log 10) -/

namespace State

variable {s : State}

theorem exec_frameRow (k : FrameKind) (origin : BitVec 16) (body : List Byte) :
    exec (frameRow k origin body) s = .next (s.event (State.receiveFrame k.dispatched origin body)) := by cases k <;> rfl

/-- Two events that do the same do so while the reset line is held too. -/
theorem event_congr {f g : State → State} (same : f { s with events := s.events + 1 } = g { s with events := s.events + 1 }) :
    s.event f = s.event g := by
  cases held : s.resetHeld with
  | true => rw [s.event_held f held, s.event_held g held]
  | false => rw [s.event_taken f held, s.event_taken g held, same]

end State

open State

/-- Settles O59. -/
theorem framesReadBack : Obligations.FramesReadBack := by
  unfold Obligations.FramesReadBack
  refine ⟨fun kind origin body low high short => ?_, fun bits ending cut => judgeEnded_cut cut, fun d => rfl,
    fun d bits => ⟨fun room => Assembler.take_inside bits d room, fun full => ?_⟩,
    fun frame group first rest ending is violates eight ends => ?_,
    fun k origin body received ending s waits low high short run => ?_⟩
  · obtain ⟨after, judged⟩ := Assembler.takes_frame (kind := kind) low high short
    exact ⟨judgeFrame_frameBytes low high short, judged, after⟩
  · show (if bits.length < 8 * collectedBytes then _ else _) = _
    exact if_neg (Nat.not_lt.2 full)
  · have ends' : ending = groupEnds group := ends
    obtain ⟨after, ended⟩ := Assembler.takes_group (frame := frame) is violates eight
    rw [after, ended, ← ends']
    exact ⟨rfl, rfl⟩
  · obtain ⟨after, judged⟩ := Assembler.takes_frame (kind := k) low high short
    have valid : validNode origin.toNat ∧ body.length ≤ maxBody := by
      rw [validNode, decide_eq_true low, decide_eq_true high]
      exact ⟨rfl, short⟩
    rw [exec_frameRow]
    refine congrArg Host.Outcome.next (event_congr ?_)
    unfold State.receiveLine State.receiveFrame
    dsimp only
    rw [waits, run, after, judged, if_pos valid]
    rfl

end Sys2Proof.Machine

namespace Sys2Proof.Machine

/-! ### The five conditions of a start (R8, R9) -/

namespace State

variable {s : State}

theorem statePermits_iff {p : Fin 10} : s.statePermits p = true ↔ (s.sc.station = .listening ∧ p = 9) ∨
    s.sc.station = .announcing ∨ s.sc.station = .operating ∨ s.sc.station = .leaving := by
  unfold statePermits
  cases station : s.sc.station <;> simp [solicitPlace]

theorem lineFree_iff : s.lineFree = true ↔ s.lac.attempt = none ∧ s.transmitEnable = false := by
  simp [lineFree]

theorem deferralMet_iff {e : Entry} : s.deferralMet e = true ↔ s.lac.activity = false ∧
    (∀ b, e.backoffEnd = some b → b ≤ s.now ∧ s.deferral e.cls ≤ s.now - b) ∧ s.deferral e.cls ≤ s.lac.idle := by
  unfold deferralMet idleFor
  cases e.backoffEnd with
  | none => simp
  | some t =>
    simp only [Bool.and_eq_true, decide_eq_true_eq, Bool.not_eq_true', le_min_iff, Option.some.injEq, forall_eq']
    tauto

theorem budgetCovers_iff {c : Fin 3} {n : Nat} : s.budgetCovers c n = true ↔
    (c ≠ 0 → n ≤ s.lac.budget ∨ (s.fullBudget < n ∧ s.lac.budget = s.fullBudget)) := by
  simp only [budgetCovers, Bool.or_eq_true, Bool.and_eq_true, decide_eq_true_eq]
  tauto

theorem mayStart_iff {p : Fin 10} {e : Entry} {body : List Byte} (entry : s.entry p = some e)
    (supplies : s.frameBody p e.kind = some body) : s.mayStart p = true ↔
    s.statePermits p = true ∧ s.lineFree = true ∧ s.deferralMet e = true ∧
      s.budgetCovers e.cls (fullLength body.length) = true := by
  unfold mayStart
  rw [entry]
  dsimp only
  rw [supplies]
  simp only [Bool.and_eq_true, and_assoc]

theorem entry_of_mayStart {p : Fin 10} (may : s.mayStart p = true) : ∃ e, s.entry p = some e := by
  unfold mayStart at may
  cases entry : s.entry p with
  | none => rw [entry] at may; cases may
  | some e => exact ⟨e, rfl⟩

/-! ### The first of the entries that may start (R4) -/

/-- The due-list order: class, due mark, place (R4). -/
def Precedes (s : State) (p q : Fin 10) : Prop := ∀ e f : Entry, s.entry p = some e → s.entry q = some f →
  e.cls < f.cls ∨ (e.cls = f.cls ∧ (e.dueMark < f.dueMark ∨ (e.dueMark = f.dueMark ∧ p < q)))

theorem Precedes.trans {p q r : Fin 10} (pq : s.Precedes p q) (qr : s.Precedes q r) (may : s.mayStart q = true) :
    s.Precedes p r := by
  intro e g atP atR
  obtain ⟨f, atQ⟩ := entry_of_mayStart may
  have first := pq e f atP atQ
  have second := qr f g atQ atR
  grind

/-- No two entries precede each other. -/
theorem Precedes.asymm {p q : Fin 10} {e f : Entry} (pq : s.Precedes p q) (atP : s.entry p = some e)
    (atQ : s.entry q = some f) : ¬s.Precedes q p := by
  intro qp
  have first := pq e f atP atQ
  have second := qp f e atQ atP
  grind

/-- The better of the best place so far and a later place (R4). -/
def earlier (s : State) (best : Option (Fin 10)) (p : Fin 10) : Option (Fin 10) :=
  if s.mayStart p then
    match best with
    | none => some p
    | some q =>
      match s.entry p, s.entry q with
      | some e, some f => if e.before f then some p else some q
      | _, _ => some q
  else best

theorem firstStartable_eq : s.firstStartable = allPlaces.foldl s.earlier none := rfl

theorem earlier_quiet {p : Fin 10} (quiet : s.mayStart p = false) (best : Option (Fin 10)) : s.earlier best p = best :=
  if_neg (by rw [quiet]; exact Bool.false_ne_true)

theorem earlier_alone {p : Fin 10} (may : s.mayStart p = true) : s.earlier none p = some p := if_pos may

/-- Of two places that may start the better one is kept; on a tie the lower place, met first. -/
theorem earlier_of_two {p q : Fin 10} (mayP : s.mayStart p = true) (mayQ : s.mayStart q = true) (above : q < p) :
    (s.earlier (some q) p = some p ∧ s.Precedes p q) ∨ (s.earlier (some q) p = some q ∧ s.Precedes q p) := by
  obtain ⟨e, atP⟩ := entry_of_mayStart mayP
  obtain ⟨f, atQ⟩ := entry_of_mayStart mayQ
  have kept : s.earlier (some q) p = if e.before f then some p else some q := by
    unfold earlier
    rw [if_pos mayP]
    dsimp only
    rw [atP, atQ]
  rw [kept]
  have order : e.before f = true ↔ e.cls < f.cls ∨ (e.cls = f.cls ∧ e.dueMark < f.dueMark) := by
    simp [Entry.before]
  by_cases before : e.before f = true
  · refine .inl ⟨if_pos before, fun e' f' is is' => ?_⟩
    cases atP.symm.trans is
    cases atQ.symm.trans is'
    exact (order.1 before).imp_right (And.imp_right .inl)
  · refine .inr ⟨if_neg before, fun f' e' is' is => ?_⟩
    cases atP.symm.trans is
    cases atQ.symm.trans is'
    rw [order] at before
    grind

/-- `best` is the first, in due-list order, of the places in `seen` that may start. -/
def FirstOf (s : State) (seen : List (Fin 10)) : Option (Fin 10) → Prop
  | none => ∀ q ∈ seen, s.mayStart q = false
  | some p => p ∈ seen ∧ s.mayStart p = true ∧ ∀ q ∈ seen, s.mayStart q = true → q ≠ p → s.Precedes p q

theorem FirstOf.earlier {seen : List (Fin 10)} {best : Option (Fin 10)} (first : s.FirstOf seen best) {p : Fin 10}
    (above : ∀ q ∈ seen, q < p) : s.FirstOf (seen ++ [p]) (s.earlier best p) := by
  cases may : s.mayStart p with
  | false =>
    rw [earlier_quiet may]
    cases best with
    | none => exact List.forall_mem_append.2 ⟨first, List.forall_mem_singleton.2 may⟩
    | some q =>
      obtain ⟨mem, mayQ, least⟩ := first
      refine ⟨List.mem_append_left _ mem, mayQ, List.forall_mem_append.2 ⟨least, List.forall_mem_singleton.2 ?_⟩⟩
      rw [may]
      exact nofun
  | true =>
    cases best with
    | none =>
      rw [earlier_alone may]
      refine ⟨List.mem_append_right _ List.mem_cons_self, may, List.forall_mem_append.2 ⟨fun r mem mayR => ?_,
        List.forall_mem_singleton.2 fun _ ne => absurd rfl ne⟩⟩
      rw [first r mem] at mayR
      cases mayR
    | some q =>
      obtain ⟨mem, mayQ, least⟩ := first
      rcases earlier_of_two may mayQ (above q mem) with ⟨kept, better⟩ | ⟨kept, better⟩ <;> rw [kept]
      · refine ⟨List.mem_append_right _ List.mem_cons_self, may, List.forall_mem_append.2 ⟨fun r memR mayR _ => ?_,
          List.forall_mem_singleton.2 fun _ ne => absurd rfl ne⟩⟩
        by_cases same : r = q
        · exact same ▸ better
        · exact better.trans (least r memR mayR same) mayQ
      · exact ⟨List.mem_append_left _ mem, mayQ, List.forall_mem_append.2 ⟨least,
          List.forall_mem_singleton.2 fun _ _ => better⟩⟩

theorem FirstOf.foldl {seen later : List (Fin 10)} {best : Option (Fin 10)} (first : s.FirstOf seen best)
    (ascending : (seen ++ later).Pairwise (· < ·)) : s.FirstOf (seen ++ later) (later.foldl s.earlier best) := by
  induction later generalizing seen best with
  | nil => rwa [List.append_nil]
  | cons p later ih =>
    rw [List.append_cons] at ascending ⊢
    refine ih (first.earlier fun q mem => ?_) ascending
    exact (List.pairwise_append.1 (List.pairwise_append.1 ascending).1).2.2 q mem p List.mem_cons_self

theorem firstStartable_first : s.FirstOf allPlaces s.firstStartable := by
  have nothing : s.FirstOf [] none := nofun
  rw [firstStartable_eq]
  exact nothing.foldl (later := allPlaces) (by decide)

theorem firstStartable_iff {p : Fin 10} : s.firstStartable = some p ↔
    s.mayStart p = true ∧ ∀ q, s.mayStart q = true → q ≠ p → s.Precedes p q := by
  have first := s.firstStartable_first
  constructor
  · intro is
    rw [is] at first
    exact ⟨first.2.1, fun q => first.2.2 q (mem_allPlaces q)⟩
  · rintro ⟨may, least⟩
    cases is : s.firstStartable with
    | none =>
      rw [is] at first
      rw [first p (mem_allPlaces p)] at may
      cases may
    | some q =>
      rw [is] at first
      obtain ⟨-, mayQ, leastQ⟩ := first
      by_contra ne
      have differ : q ≠ p := fun same => ne (congrArg some same)
      obtain ⟨e, atP⟩ := entry_of_mayStart may
      obtain ⟨f, atQ⟩ := entry_of_mayStart mayQ
      exact (least q mayQ differ).asymm atP atQ (leastQ p (mem_allPlaces p) may differ.symm)

/-! ### The body that the owner supplies (R67, R91) -/

theorem frameBody_hold (i : Fin 8) (k : FrameKind) : s.frameBody (holdPlace i) k = s.holdFrameBody i k := by
  unfold frameBody
  rw [slotOfPlace_holdPlace]

theorem advertBody_eq {r : NodeRecord} (owns : s.ownRecord = some r) (withdraw : Bool) :
    s.advertBody withdraw = some (Advert.bytes ⟨s.ads.sequence, decide (0 < s.ads.freshCount) && !withdraw, withdraw,
      r.transit, r.profile, if withdraw then [] else (linkSet s.ownId s.tv.links).map LinkRecord.entry⟩) := by
  rw [advertBody, owns]
  rfl

theorem holdFrameBody_release {i : Fin 8} {n : BitVec 8} (number : (s.slot i).number = some n) :
    s.holdFrameBody i .release = some [n] := by
  unfold holdFrameBody
  rw [number]
  exact if_pos rfl

theorem holdFrameBody_record {i : Fin 8} {n : BitVec 8} (number : (s.slot i).number = some n) {h : Hold}
    (record : s.ownHold n = some h) {k : FrameKind} (keeps : k ≠ .release) : s.holdFrameBody i k =
      some (HoldBody.bytes ⟨h.number, h.priority, decide (k = .object) && h.committed, h.start, h.width, h.links⟩) := by
  unfold holdFrameBody
  rw [number]
  dsimp only
  rw [if_neg keeps, record]
  rfl

/-- Time leaves every body as it is. -/
theorem frameBody_elapse (p : Fin 10) (k : FrameKind) (dt : Nat) : (s.elapse dt).frameBody p k = s.frameBody p k := by
  have bodies (i : Fin 8) : (s.elapse dt).holdFrameBody i k = s.holdFrameBody i k := by
    have number : ((s.elapse dt).slot i).number = (s.slot i).number := by rw [elapse_slot, Slot.after_number]
    obtain ⟨idle, watch, timer, slots, f, elapsed, lifetimes⟩ := elapse_writes s dt
    have record (n : BitVec 8) : (s.elapse dt).ownHold n = (s.ownHold n).map f := by
      rw [elapsed]
      exact lookup_map (key := Hold.code) (f := f) (fun h => by rw [lifetimes h]; rfl) s.hu.holds _
    unfold holdFrameBody
    rw [number]
    cases (s.slot i).number with
    | none => rfl
    | some n =>
      dsimp only
      rw [record, Option.map_map]
      refine congrArg (ite (k = .release) (some [n])) (congrArg (Option.map · (s.ownHold n)) (funext fun h => ?_))
      rw [Function.comp_apply, lifetimes h]
  unfold frameBody
  cases slotOfPlace p with
  | some i => exact bodies i
  | none => rfl

theorem startAttempt_eq {p : Fin 10} {e : Entry} {body : List Byte} (entry : s.entry p = some e)
    (supplies : s.frameBody p e.kind = some body) : s.startAttempt p = { s with
      lac.attempt := some ⟨p, e.kind, frameBytes e.kind s.ownId body, s.now⟩
      lac.sending := some ⟨s.now, frameBytes e.kind s.ownId body, none⟩
      ads.mark := if e.kind = .advert ∧ s.ads.mark = .waiting then .carried else s.ads.mark } := by
  unfold startAttempt
  rw [entry]
  dsimp only
  rw [supplies]

/-! ### What transmit data gives of a run (R1, R10 to R12, R15) -/

theorem lineOut_eq {x : Transmission} (goes : s.run = some x) (t : Nat) :
    s.lineOut t = if t < x.startedAt then none else x.bits[t - x.startedAt]? := by
  rw [lineOut, goes, Option.bind_some]

theorem transmitEnable_iff {x : Transmission} (goes : s.run = some x) : s.transmitEnable = true ↔
    x.startedAt ≤ s.now ∧ s.now < x.startedAt + x.bits.length := by
  rw [transmitEnable, transmitData, lineOut_eq goes]
  split
  · rename_i early
    simp only [Option.isSome_none, Bool.false_eq_true, false_iff]
    omega
  · rename_i began
    rw [isSome_getElem?]
    omega

/-- A run on the line is cut where it was broken off, or at the echo limit while its attempt hears no echo (R11). -/
theorem run_sending {x : Transmission} (sending : s.lac.sending = some x) : s.run = some { x with cut :=
    match s.lac.attempt with
    | none => x.cut
    | some a => s.echoLoss a } := by
  unfold run
  cases s.lac.attempt with
  | none => exact sending
  | some a => rw [sending]; rfl

/-- Where a run is cut, in the words of the statement. -/
theorem run_cut {x : Transmission} (sending : s.lac.sending = some x) : s.run = some { x with cut :=
    match s.lac.attempt, x.cut with
    | some a, none => if s.lac.echo = false ∧ a.startedAt + 12 ≤ s.now then some 12 else none
    | _, n => n } := by
  rw [run_sending sending]
  cases s.lac.attempt with
  | none => rfl
  | some a =>
    have loss : s.echoLoss a = match x.cut with
        | none => if s.lac.echo = false ∧ a.startedAt + 12 ≤ s.now then some 12 else none
        | n => n := by
      unfold echoLoss brokenOff
      rw [sending, Option.bind_some]
      cases x.cut with
      | some n => rfl
      | none =>
        refine ite_congr (propext ?_) (fun _ => rfl) (fun _ => rfl)
        rw [Bool.and_eq_true, Bool.not_eq_true', decide_eq_true_eq]
        rfl
    dsimp only
    rw [loss]
    cases x.cut <;> rfl

end State

theorem Transmission.length_bits (x : Transmission) : x.bits.length = match x.cut with
    | none => 8 * (x.frame.length + 4)
    | some n => min n (8 * (x.frame.length + 4)) + 8 := by
  unfold Transmission.bits
  cases x.cut with
  | none => exact lineRun_length x.frame
  | some n =>
    dsimp only
    rw [List.length_append, List.length_take, lineRun_length]
    rfl

open State

/-- Settles O38: the five conditions, the order, and the run that goes out, one lemma for each. -/
theorem firstEntryInOrderStarts : Obligations.FirstEntryInOrderStarts := by
  unfold Obligations.FirstEntryInOrderStarts
  refine ⟨fun p e body s entry supplies => ?_, fun p e s entry => ?_, fun s => ⟨rfl, fun r owns => ?_, fun i n number => ?_⟩,
    fun dt p e body s running first entry supplies => ?_, fun dt s running first => ?_, fun s => ⟨fun silent => ?_, ?_⟩⟩
  · rw [mayStart_iff entry supplies, statePermits_iff, lineFree_iff, deferralMet_iff, budgetCovers_iff]
    simp only [and_assoc]
    exact Iff.rfl
  · rw [firstStartable_iff]
    refine and_congr_right fun _ => ⟨fun least q f atQ may ne => least q may ne e f entry atQ,
      fun least q may ne e' f atP atQ => ?_⟩
    cases entry.symm.trans atP
    exact least q f atQ may ne
  · have bodies := advertBody_eq owns
    refine ⟨(bodies false).trans ?_, (bodies true).trans ?_⟩
    · rw [Bool.not_false, Bool.and_true]
      rfl
    · rw [Bool.not_true, Bool.and_false]
      rfl
  · simp only [frameBody_hold]
    refine ⟨holdFrameBody_release number, fun h stored own is ok => ?_⟩
    have record : s.ownHold n = some h := is ▸ ok.ownHold stored (beq_iff_eq.1 ((ok.own h stored).symm.trans own))
    refine ⟨?_, ?_, ?_⟩
    all_goals
      rw [holdFrameBody_record number record (by decide), is]
      rfl
  · rw [exec_event (c := .attemptStart dt) rfl running]
    have chosen : State.firstStartable (State.elapse dt { s with events := s.events + 1 }) = some p := first
    unfold startFirst
    rw [chosen]
    dsimp only
    rw [startAttempt_eq (s := State.elapse dt { s with events := s.events + 1 }) (e := e) (body := body) entry
      ((frameBody_elapse (s := { s with events := s.events + 1 }) p e.kind dt).trans supplies)]
    rfl
  · rw [exec_event (c := .attemptStart dt) rfl running]
    have chosen : State.firstStartable (State.elapse dt { s with events := s.events + 1 }) = none := first
    unfold startFirst
    rw [chosen]
    rfl
  · have still : s.run = none := by
      unfold run
      cases s.lac.attempt with
      | none => exact silent
      | some a => rw [silent]; rfl
    rw [transmitData, lineOut, still]
    rfl
  · intro x cut sending is
    have goes : s.run = some { x with cut := cut } := (run_cut sending).trans (congrArg (fun n => some { x with cut := n }) is.symm)
    refine ⟨?_, ?_⟩
    · refine (lineOut_eq goes s.now).trans ?_
      cases cut <;> rfl
    · refine (transmitEnable_iff goes).trans (and_congr_right fun _ => iff_of_eq (congrArg (fun n => s.now < x.startedAt + n)
        ((Transmission.length_bits _).trans ?_)))
      cases cut <;> rfl

end Sys2Proof.Machine

namespace Sys2Proof.Machine

/-! ## One incoming hold frame (R96, R105 to R107) -/

theorem Substate.objects_iff (sub : Substate) : sub.objects = true ↔
    sub = .held ∨ sub = .committed ∨ ∃ commit, sub = .committing commit := by
  cases sub with
  | held => exact iff_of_true rfl (.inl rfl)
  | committed => exact iff_of_true rfl (.inr (.inl rfl))
  | committing c => exact iff_of_true rfl (.inr (.inr ⟨c, rfl⟩))
  | pending | announced => exact iff_of_false nofun fun | .inr (.inr ⟨_, is⟩) => nomatch is

namespace State

variable {s : State}

/-- A peer record that was just put goes again. -/
theorem removeHold_putHold (sorted : Table.Sorted Hold.code s.hu.holds) {x : Hold} (peer : x.own = false) :
    (s.putHold x).removeHold x.code = s.peerGone x.code := by
  unfold removeHold
  rw [show (s.putHold x).hu.holds = Table.put Hold.code x s.hu.holds from rfl, Table.lookup_put_key]
  dsimp only
  rw [Table.erase_put sorted, if_neg (by rw [peer]; exact Bool.false_ne_true), setOverflow_eq]
  unfold peerGone
  rw [← Bool.xor_false s.hu.overflow]
  rfl

/-- A committed peer record that every link shows lit goes (R103). -/
theorem supersede_peer {x : Hold} (peer : x.own = false) (committed : x.committed = true)
    (superseded : s.isSuperseded x = true) : s.supersede x = s.removeHold x.code := by
  unfold supersede
  rw [committed, superseded, peer]
  rfl

theorem supersede_stands {x : Hold} (stands : x.committed = false ∨ s.isSuperseded x = false) : s.supersede x = s := by
  unfold supersede
  refine if_neg ?_
  rw [Bool.not_eq_true, Bool.and_eq_false_iff]
  exact stands

/-! ### A frame that repeats a record (R105) -/

/-- The record that a repeated frame leaves, before supersession. -/
theorem refresh_counted {r h r' : Hold} (sorted : Table.Sorted Hold.code s.hu.holds) (stored : r ∈ s.hu.holds)
    (is : r' = { r with
      established := r.established || h.established
      committed := r.committed || h.committed
      lifetime := some (s.peerLifetime (r.committed || h.committed)) }) {w : State}
    (written : w = { s with
      hu.holds := s.hu.holds.map (fun x => if x.code = r.code then r' else x)
      tv.counter := s.tv.counter +
        (if r'.established = r.established ∧ r'.committed = r.committed then 0#32 else 1#32) }) :
    s.refresh r h = if r'.committed = r.committed then w else w.supersede r' := by
  have code : r.code = r'.code := by rw [is]; rfl
  have put : s.putHold r' = { s with hu.holds := s.hu.holds.map (fun x => if x.code = r.code then r' else x) } := by
    unfold putHold
    rw [Table.put_eq_map sorted stored code, code]
  have counted : (if (r'.established != r.established || r'.committed != r.committed) = true then (s.putHold r').count 1
      else s.putHold r') = w := by
    rw [written, put]
    by_cases same : r'.established = r.established ∧ r'.committed = r.committed
    · rw [if_neg (by rw [same.1, same.2, bne_self_eq_false, bne_self_eq_false]; nofun), if_pos same, BitVec.add_zero]
    · rw [if_pos (by rwa [Bool.or_eq_true, bne_iff_ne, bne_iff_ne, ← not_and_or]), if_neg same]
      rfl
  have ran : s.refresh r h = if (r'.committed != r.committed) = true then
      State.supersede r' (if (r'.established != r.established || r'.committed != r.committed) = true then
        (s.putHold r').count 1 else s.putHold r')
    else if (r'.established != r.established || r'.committed != r.committed) = true then (s.putHold r').count 1
      else s.putHold r' := by
    rw [is]
    rfl
  rw [ran, counted]
  by_cases same : r'.committed = r.committed
  · rw [if_pos same, if_neg fun differ => bne_iff_ne.1 differ same]
  · rw [if_neg same, if_pos (bne_iff_ne.2 same)]

/-- The same, where the record becomes committed and every link shows it lit (R103, R105). -/
theorem refresh_superseded {r h r' : Hold} (sorted : Table.Sorted Hold.code s.hu.holds) (stored : r ∈ s.hu.holds)
    (peer : r.own = false)
    (is : r' = { r with
      established := r.established || h.established
      committed := r.committed || h.committed
      lifetime := some (s.peerLifetime (r.committed || h.committed)) })
    (raised : r'.committed ≠ r.committed) (superseded : s.isSuperseded r' = true) :
    s.refresh r h = ({ s with tv.counter := s.tv.counter + 1#32 }).peerGone r.code := by
  have peer' : r'.own = false := by rw [is]; exact peer
  have code : r.code = r'.code := by rw [is]; rfl
  have committed : r'.committed = true := by
    cases old : r'.committed with
    | true => rfl
    | false =>
      have both : (r.committed || h.committed) = false := by rw [is] at old; exact old
      exact absurd (old.trans (Bool.or_eq_false_iff.1 both).1.symm) raised
  have put : { s with
      hu.holds := s.hu.holds.map (fun x => if x.code = r.code then r' else x)
      tv.counter := s.tv.counter +
        (if r'.established = r.established ∧ r'.committed = r.committed then 0#32 else 1#32) } =
      State.putHold r' { s with tv.counter := s.tv.counter + 1#32 } := by
    rw [if_neg fun both => raised both.2, code]
    unfold putHold
    rw [← Table.put_eq_map sorted stored code]
  have lit : State.isSuperseded (State.putHold r' { s with tv.counter := s.tv.counter + 1#32 }) r' = true := superseded
  rw [refresh_counted sorted stored is put.symm, if_neg raised, supersede_peer peer' committed lit, code]
  exact removeHold_putHold (s := { s with tv.counter := s.tv.counter + 1#32 }) sorted peer'

/-! ### A hold that is new (R106, R107) -/

section
variable {h stored : Hold} (is : stored = { h with lifetime := some (s.peerLifetime h.committed) })
include is

theorem storeHold_room (room : s.peerHolds < 40) :
    s.storeHold h = State.supersede stored ((s.putHold stored).count 1) := by
  rw [is]
  exact if_pos room

/-- An incoming hold finds a place (R107). -/
theorem storeHold_stored (sorted : Table.Sorted Hold.code s.hu.holds) (room : s.peerHolds < 40)
    (stands : h.committed = false ∨ s.isSuperseded stored = false) : s.storeHold h =
      { s with hu.holds := insertSorted Hold.code stored s.hu.holds, tv.counter := s.tv.counter + 1#32 } := by
  have unlit : stored.committed = false ∨ ((s.putHold stored).count 1).isSuperseded stored = false :=
    stands.imp_left fun off => by rw [is]; exact off
  rw [storeHold_room is room, supersede_stands unlit]
  unfold putHold
  rw [Table.put_eq_insertSorted sorted]
  rfl

/-- An incoming hold is superseded at once (R103, R107). -/
theorem storeHold_superseded (sorted : Table.Sorted Hold.code s.hu.holds) (peer : h.own = false) (room : s.peerHolds < 40)
    (committed : h.committed = true) (superseded : s.isSuperseded stored = true) :
    s.storeHold h = ({ s with tv.counter := s.tv.counter + 1#32 }).peerGone h.code := by
  have code : h.code = stored.code := by rw [is]; rfl
  have lit : ((s.putHold stored).count 1).isSuperseded stored = true := superseded
  rw [storeHold_room is room, supersede_peer (by rw [is]; exact peer) (by rw [is]; exact committed) lit, code]
  exact removeHold_putHold (s := { s with tv.counter := s.tv.counter + 1#32 }) sorted (by rw [is]; exact peer)
end

/-- An incoming hold finds no place (R107). -/
theorem storeHold_full {h : Hold} (full : 40 ≤ s.peerHolds) : s.storeHold h =
    { s with hu.overflow := true, clp.marks.overflow := s.clp.marks.overflow || !s.hu.overflow } := by
  have ran : s.storeHold h = s.setOverflow true := if_neg (Nat.not_lt.2 full)
  rw [ran, setOverflow_eq, Bool.bne_true]

/-! ### The own holds that object (R96) -/

/-- The slot's own record overlaps the incoming hold and outranks it, and its substate objects (R96). -/
def objects (s : State) (h : Hold) (i : Fin 8) : Bool :=
  match s.slot i with
  | .live sub n _ => (s.ownHold n).any fun r => sub.objects && r.overlaps h && r.outranks h
  | _ => false

theorem ownHold_eq_some (sorted : Table.Sorted Hold.code s.hu.holds) {n : BitVec 8} {r : Hold} :
    s.ownHold n = some r ↔ r ∈ s.hu.holds ∧ r.origin = s.ownId ∧ r.number = n := by
  refine (Table.lookup_eq_some sorted).trans (and_congr_right fun _ => ⟨holdCode_inj, fun ⟨origin, number⟩ => ?_⟩)
  rw [Hold.code, origin, number]

theorem objects_iff (sorted : Table.Sorted Hold.code s.hu.holds) {h : Hold} {i : Fin 8} : s.objects h i = true ↔
    ∃ sub n t r, s.slot i = .live sub n t ∧ (sub = .held ∨ sub = .committed ∨ ∃ commit, sub = .committing commit) ∧
      r ∈ s.hu.holds ∧ r.origin = s.ownId ∧ r.number = n ∧ r.overlaps h = true ∧ r.outranks h = true := by
  unfold objects
  cases slot : s.slot i with
  | live sub n t =>
    simp only [Option.any_eq_true, ownHold_eq_some sorted, Bool.and_eq_true, Substate.objects_iff]
    constructor
    · rintro ⟨r, ⟨stored, origin, number⟩, ⟨is, meets⟩, beats⟩
      exact ⟨sub, n, t, r, rfl, is, stored, origin, number, meets, beats⟩
    · rintro ⟨_, _, _, r, same, is, stored, origin, number, meets, beats⟩
      cases same
      exact ⟨r, ⟨stored, origin, number⟩, ⟨is, meets⟩, beats⟩
  | free | closing | ended => simp

/-- The place of a slot after its objection. -/
def objected (h : Hold) (s : State) (i : Fin 8) : Option Entry :=
  if s.objects h i then s.dueEntry (holdPlace i) .object 0 else s.entry (holdPlace i)

theorem objectIf_eq (h : Hold) (s : State) (i : Fin 8) : s.objectIf h i = s.setEntry (holdPlace i) (s.objected h i) := by
  have ran : s.objectIf h i = if s.objects h i then s.makeDue (holdPlace i) .object 0 else s := by
    unfold objectIf
    split
    · rename_i sub n t slot
      have own : s.objects h i = (s.ownHold n).any fun r => sub.objects && r.overlaps h && r.outranks h := by
        unfold objects
        rw [slot]
      rw [own]
      split
      · rename_i r found
        rw [found, Option.any_some]
      · rename_i absent
        rw [absent, Option.any_none]
        rfl
    · rename_i dead
      have none : s.objects h i = false := by
        unfold objects
        cases slot : s.slot i with
        | live sub n t => exact absurd slot (dead sub n t)
        | free | closing | ended => rfl
      rw [none]
      rfl
  rw [ran]
  unfold objected
  split
  · exact makeDue_eq ..
  · exact (setEntry_self ..).symm

theorem objectAll_stands (h : Hold) (s : State) : ∃ due, s.objectAll h = { s with lac.due := due } :=
  foldl_keeps (P := fun t : State => ∃ due, t = { s with lac.due := due }) (fun t is i _ => by
    obtain ⟨due, rfl⟩ := is
    exact ⟨_, objectIf_eq ..⟩) ⟨s.lac.due, rfl⟩

theorem objectAll_entry (h : Hold) (s : State) (i : Fin 8) :
    (s.objectAll h).entry (holdPlace i) = s.objected h i := by
  refine (foldl_entry (f := fun s i => s.objectIf h i) (g := State.objected h) (fun s i => ?_) (fun s i j ne => ?_)
    (by decide) s i).trans (if_pos (mem_allSlots i))
  · rw [objectIf_eq, entry_setEntry_self]
  · have kept : (s.objectIf h i).entry (holdPlace j) = s.entry (holdPlace j) := by
      rw [objectIf_eq, entry_setEntry_ne _ _ _ _ fun same => ne (holdPlace_inj same)]
    have due : (s.objectIf h i).dueEntry (holdPlace j) .object 0 = s.dueEntry (holdPlace j) .object 0 := by
      refine dueEntry_congr kept ?_ ?_ ?_ _ _ <;> rw [objectIf_eq] <;> rfl
    have must : (s.objectIf h i).objects h j = s.objects h j := by rw [objectIf_eq]; rfl
    refine ⟨kept, ?_⟩
    unfold objected
    rw [must, due, kept]

theorem objectAll_entry_other {p : Fin 10} (other : ∀ i, p ≠ holdPlace i) (h : Hold) (s : State) :
    (s.objectAll h).entry p = s.entry p := by
  refine foldl_keeps (P := fun t : State => t.entry p = s.entry p) (fun t before i _ => ?_) rfl
  rw [objectIf_eq, entry_setEntry_ne _ _ _ _ (other i), before]

end State

end Sys2Proof.Machine

namespace Sys2Proof.Machine

/-! ## The records that an incoming hold outranks (R95, R106) -/

/-! ### Rank order (R89, R106) -/

theorem perm_placeByRank (r : Hold) (l : List Hold) : (placeByRank r l).Perm (r :: l) := by
  induction l with
  | nil => exact .refl _
  | cons x l ih =>
    unfold placeByRank
    split
    · exact .refl _
    · exact (ih.cons x).trans (.swap r x l)

theorem perm_rankOrder (l : List Hold) : (rankOrder l).Perm l := by
  induction l with
  | nil => exact .refl _
  | cons r l ih => exact (perm_placeByRank r _).trans (ih.cons r)

theorem pairwise_placeByRank {r : Hold} {l : List Hold} (ranked : l.Pairwise fun x y => x.outranks y = true)
    (differ : ∀ x ∈ l, x.code ≠ r.code) : (placeByRank r l).Pairwise fun x y => x.outranks y = true := by
  induction l with
  | nil => exact List.pairwise_singleton ..
  | cons x l ih =>
    obtain ⟨beats, ranked'⟩ := List.pairwise_cons.1 ranked
    obtain ⟨differX, differ⟩ := List.forall_mem_cons.1 differ
    unfold placeByRank
    split
    · rename_i higher
      refine List.pairwise_cons.2 ⟨List.forall_mem_cons.2 ⟨higher, fun y mem => ?_⟩, ranked⟩
      exact Hold.outranks_trans higher (beats y mem)
    · rename_i lower
      have differs : x.origin ≠ r.origin ∨ x.number ≠ r.number := by
        rw [← not_and_or]
        exact fun ⟨origin, number⟩ => differX (by rw [Hold.code, origin, number]; rfl)
      refine List.pairwise_cons.2 ⟨fun y mem => ?_, ih ranked' differ⟩
      rcases State.mem_placeByRank.1 mem with rfl | mem
      · exact (Hold.outranks_iff_not_outranks differs).2 (Bool.eq_false_of_not_eq_true lower)
      · exact beats y mem

theorem pairwise_rankOrder {l : List Hold} (differ : l.Pairwise fun x y => x.code ≠ y.code) :
    (rankOrder l).Pairwise fun x y => x.outranks y = true := by
  induction l with
  | nil => exact .nil
  | cons r l ih =>
    obtain ⟨differR, differ⟩ := List.pairwise_cons.1 differ
    exact pairwise_placeByRank (ih differ) fun x mem => (differR x ((perm_rankOrder l).mem_iff.1 mem)).symm

namespace State

variable {s t u : State}

/-! ### The records yield one after another -/

/-- The HOLD COMMIT that waits on an own record that is lost (R95). -/
def lostCommit (s : State) (r : Hold) : Option Completion :=
  if r.own then (s.findSlot r.number).bind fun i => (s.slot i).commitEnded .lost else none

/-- The slot's own record is among those that yield. -/
def Loses (l : List Hold) (s : State) (i : Fin 8) : Prop := ∃ r ∈ l, r.own = true ∧ (s.slot i).number = some r.number

/-- The records `l` have yielded: the own ones are lost. -/
structure Yielded (l : List Hold) (s t : State) : Prop where
  holds : t.hu.holds = s.hu.holds.filter fun x => decide (x ∉ l)
  counter : t.tv.counter = s.tv.counter + BitVec.ofNat 32 l.length
  overflow : t.hu.overflow = (s.hu.overflow && l.all Hold.own)
  mark : t.clp.marks.overflow = (s.clp.marks.overflow || (s.hu.overflow != t.hu.overflow))
  completions : t.clp.completions = s.clp.completions ++ l.filterMap s.lostCommit
  reservations : t.clp.reservations = s.clp.reservations - (l.filterMap s.lostCommit).length
  lost : ∀ i, s.Loses l i → (∀ sub n tag, s.slot i = .live sub n tag → t.slot i = .ended n tag .lost) ∧
    t.entry (holdPlace i) = (s.withdrawEntry (holdPlace i)).entry (holdPlace i)
  stays : ∀ i, ¬s.Loses l i → t.slot i = s.slot i ∧ t.entry (holdPlace i) = s.entry (holdPlace i)
  numbers : ∀ i, (t.slot i).number = (s.slot i).number
  other : ∀ p, (∀ i, p ≠ holdPlace i) → t.entry p = s.entry p
  stands : t = { s with
    lac.due := t.lac.due, tv.counter := t.tv.counter
    hu.holds := t.hu.holds, hu.slots := t.hu.slots, hu.overflow := t.hu.overflow
    clp.completions := t.clp.completions, clp.reservations := t.clp.reservations
    clp.marks.overflow := t.clp.marks.overflow }

theorem yielded_nil (s : State) : Yielded [] s s where
  holds := (List.filter_eq_self.2 fun _ _ => decide_eq_true List.not_mem_nil).symm
  counter := (BitVec.add_zero _).symm
  overflow := (Bool.and_true _).symm
  mark := by rw [bne_self_eq_false, Bool.or_false]
  completions := (List.append_nil _).symm
  reservations := rfl
  lost := fun _ ⟨_, mem, _⟩ => absurd mem List.not_mem_nil
  stays := fun _ _ => ⟨rfl, rfl⟩
  numbers := fun _ => rfl
  other := fun _ _ => rfl
  stands := rfl

/-- A stored record is the only one of its code. -/
theorem filter_code (ok : s.HoldsOk) {r : Hold} (stored : r ∈ s.hu.holds) :
    (s.hu.holds.filter fun x => x.code != r.code) = s.hu.holds.filter fun x => decide (x ∉ [r]) := by
  refine List.filter_congr fun x mem => ?_
  rw [Bool.eq_iff_iff, bne_iff_ne, decide_eq_true_eq, List.mem_singleton]
  exact not_congr ⟨ok.sorted.inj mem stored, congrArg Hold.code⟩

/-- A peer record yields. -/
theorem yielded_peer (ok : s.HoldsOk) {r : Hold} (stored : r ∈ s.hu.holds) (peer : r.own = false) :
    Yielded [r] s (s.yield r) := by
  have none : [r].filterMap s.lostCommit = [] := by
    have waits : s.lostCommit r = none := if_neg (by rw [peer]; exact Bool.false_ne_true)
    exact List.filterMap_cons_none waits
  have mine (i : Fin 8) : ¬s.Loses [r] i := by
    rintro ⟨x, mem, own, -⟩
    cases List.mem_singleton.1 mem
    rw [peer] at own
    cases own
  have ran : s.yield r = s.peerGone r.code :=
    (if_neg (by rw [peer]; exact Bool.false_ne_true)).trans (s.removeHold_peer ok stored peer)
  rw [ran]
  refine ⟨filter_code ok stored, rfl, ?_, ?_, ?_, ?_, fun i loses => absurd loses (mine i), fun _ _ => ⟨rfl, rfl⟩,
    fun _ => rfl, fun _ _ => rfl, rfl⟩
  · rw [List.all_cons, peer, Bool.false_and, Bool.and_false]
    rfl
  · exact congrArg (s.clp.marks.overflow || ·) (Bool.xor_false s.hu.overflow).symm
  · rw [none]
    exact (List.append_nil _).symm
  · rw [none]
    rfl

/-- An own record is lost (R95). -/
theorem yielded_own (ok : s.HoldsOk) {r : Hold} (stored : r ∈ s.hu.holds) (own : r.own = true) :
    Yielded [r] s (s.yield r) := by
  obtain ⟨i, sub, tag, slot⟩ := ok.slot_live stored own
  have number : (s.slot i).number = some r.number := by rw [slot]; rfl
  have only (j : Fin 8) (same : (s.slot j).number = some r.number) : j = i :=
    ok.numbers j i (by rw [same]; nofun) (same.trans number.symm)
  have found : s.findSlot r.number = some i := State.findSlot_eq_some number only
  have origin : r.origin = s.ownId := beq_iff_eq.1 ((ok.own r stored).symm.trans own)
  have commit : s.lostCommit r = sub.commitTag.map fun c => ⟨.holdCommit, c, .lost, .none, false, .holdNumber r.number⟩ := by
    unfold lostCommit
    rw [if_pos own, found, Option.bind_some, slot]
    rfl
  have loses (j : Fin 8) : s.Loses [r] j ↔ j = i := by
    refine ⟨fun ⟨x, mem, _, same⟩ => only j (List.mem_singleton.1 mem ▸ same), ?_⟩
    rintro rfl
    exact ⟨r, List.mem_singleton.2 rfl, own, number⟩
  have ran : s.yield r = State.ownGone i r.number (.ended r.number tag .lost) { s.withdrawEntry (holdPlace i) with
      clp.completions := s.clp.completions ++ (s.lostCommit r).toList
      clp.reservations := s.clp.reservations - sub.commitTag.toList.length } := by
    unfold State.yield
    rw [if_pos own, found]
    dsimp only
    unfold State.loseHold
    rw [slot]
    dsimp only
    rw [State.endHold_live _ (ok.withdrawEntry (holdPlace i)) ((slot_withdrawEntry ..).trans slot), commit, withdrawEntry_eq]
    rfl
  have one : [r].filterMap s.lostCommit = (s.lostCommit r).toList := by
    cases is : s.lostCommit r <;> simp [is]
  have places (p : Fin 10) : (s.yield r).entry p = (s.withdrawEntry (holdPlace i)).entry p := by rw [ran]; rfl
  have slots (j : Fin 8) : (s.yield r).slot j = if j = i then .ended r.number tag .lost else s.slot j := by
    rw [ran, withdrawEntry_eq]
    exact slot_setSlot ..
  have removed : (s.yield r).hu.holds = s.hu.holds.filter fun x => x.code != r.code := by
    rw [ran, withdrawEntry_eq, Hold.code, origin]
    rfl
  have kept {p : Fin 10} (ne : p ≠ holdPlace i) : (s.yield r).entry p = s.entry p := by
    rw [places, withdrawEntry_eq, entry_setEntry_ne _ _ _ _ ne]
  refine ⟨removed.trans (filter_code ok stored), ?_, ?_, ?_, ?_, ?_, fun j lost => ?_, fun j stays => ?_,
    fun j => ?_, fun p other => kept (other i), ?_⟩
  · rw [ran, withdrawEntry_eq]
    rfl
  · rw [List.all_cons, own, List.all_nil, Bool.and_true, Bool.and_true, ran, withdrawEntry_eq]
    rfl
  · rw [ran, withdrawEntry_eq]
    exact (congrArg (s.clp.marks.overflow || ·) (bne_self_eq_false _)).trans (Bool.or_false _) |>.symm
  · rw [one, ran]
    rfl
  · rw [one, commit, ran]
    cases sub.commitTag <;> rfl
  · cases (loses j).1 lost
    refine ⟨fun sub' n' tag' is => ?_, places _⟩
    cases slot.symm.trans is
    rw [slots, if_pos rfl]
  · rw [loses] at stays
    exact ⟨by rw [slots, if_neg stays], kept fun same => stays (holdPlace_inj same)⟩
  · rw [slots]
    split
    · rename_i same
      rw [same, number]
      rfl
    · rfl
  · rw [ran, withdrawEntry_eq]
    rfl

theorem yielded_yield (ok : s.HoldsOk) {r : Hold} (stored : r ∈ s.hu.holds) : Yielded [r] s (s.yield r) := by
  cases own : r.own with
  | true => exact yielded_own ok stored own
  | false => exact yielded_peer ok stored own

theorem Yielded.loses_cons {r : Hold} {l : List Hold} (first : Yielded [r] s u) (i : Fin 8) :
    s.Loses (r :: l) i ↔ s.Loses [r] i ∨ u.Loses l i := by
  unfold Loses
  simp only [first.numbers i, List.mem_cons, List.not_mem_nil, or_false, or_and_right, exists_or, exists_eq_left]

theorem Yielded.cons {r : Hold} {l : List Hold} (first : Yielded [r] s u) (rest : Yielded l u t)
    (apart : ∀ x ∈ l, x.own = true → r.own = true → x.number ≠ r.number) : Yielded (r :: l) s t := by
  have once (i : Fin 8) (now : s.Loses [r] i) : ¬u.Loses l i := by
    obtain ⟨y, is, mine, number⟩ := now
    cases List.mem_singleton.1 is
    rintro ⟨x, mem, own, same⟩
    rw [first.numbers i, number] at same
    exact apart x mem own mine (Option.some.inj same).symm
  have find (n : BitVec 8) : u.findSlot n = s.findSlot n := by
    unfold findSlot
    simp only [first.numbers]
  have commits : l.filterMap u.lostCommit = l.filterMap s.lostCommit := by
    refine List.filterMap_congr fun x mem => ?_
    unfold lostCommit
    rw [find]
    cases own : x.own with
    | false => rfl
    | true =>
      cases found : s.findSlot x.number with
      | none => rfl
      | some i =>
        have number : (s.slot i).number = some x.number := by simpa using List.find?_some found
        have later : ¬s.Loses [r] i := fun now => once i now ⟨x, mem, own, (first.numbers i).trans number⟩
        rw [Option.bind_some, Option.bind_some, (first.stays i later).1]
  have posted : (r :: l).filterMap s.lostCommit = [r].filterMap s.lostCommit ++ l.filterMap s.lostCommit :=
    List.filterMap_append (l := [r])
  have attempt : u.lac.attempt = s.lac.attempt := by rw [first.stands]
  refine ⟨?_, ?_, ?_, ?_, ?_, ?_, fun i lost => ?_, fun i stays => ?_, fun i => ?_, fun p off => ?_, ?_⟩
  · rw [rest.holds, first.holds, List.filter_filter]
    refine List.filter_congr fun x _ => ?_
    rw [Bool.eq_iff_iff, Bool.and_eq_true, decide_eq_true_eq, decide_eq_true_eq, decide_eq_true_eq, List.mem_singleton,
      List.mem_cons, not_or, and_comm]
  · rw [rest.counter, first.counter, BitVec.add_assoc, ← BitVec.ofNat_add, Nat.add_comm]
    rfl
  · rw [rest.overflow, first.overflow, List.all_cons, List.all_nil, Bool.and_true, List.all_cons, Bool.and_assoc]
  · have is := rest.overflow
    rw [first.overflow] at is
    rw [rest.mark, first.mark, is, first.overflow]
    cases s.hu.overflow <;> cases [r].all Hold.own <;> cases l.all Hold.own <;> cases s.clp.marks.overflow <;> rfl
  · rw [rest.completions, first.completions, commits, posted, List.append_assoc]
  · rw [rest.reservations, first.reservations, commits, posted, List.length_append, Nat.sub_sub]
  · rcases (first.loses_cons i).1 lost with now | later
    · obtain ⟨ended, left⟩ := first.lost i now
      obtain ⟨slot, entry⟩ := rest.stays i (once i now)
      exact ⟨fun sub n tag is => slot.trans (ended sub n tag is), entry.trans left⟩
    · obtain ⟨slot, entry⟩ := first.stays i fun now => once i now later
      obtain ⟨ended, left⟩ := rest.lost i later
      refine ⟨fun sub n tag is => ended sub n tag (slot.trans is), left.trans ?_⟩
      rw [withdrawEntry_entry, withdrawEntry_entry, onLine_congr attempt, entry]
  · rw [first.loses_cons, not_or] at stays
    obtain ⟨slot, entry⟩ := first.stays i stays.1
    obtain ⟨slot', entry'⟩ := rest.stays i stays.2
    exact ⟨slot'.trans slot, entry'.trans entry⟩
  · rw [rest.numbers, first.numbers]
  · rw [rest.other p off, first.other p off]
  · rw [rest.stands, first.stands]

theorem HoldsOk.yield (ok : s.HoldsOk) {r : Hold} (stored : r ∈ s.hu.holds) : (s.yield r).HoldsOk :=
  ((ok.with.yield (HoldTables.origin_eq ok.with stored) (HoldTables.origin_ne ok.with stored)).1).ok (Work.yield s r)

theorem yielded_foldl {l : List Hold} (ok : s.HoldsOk) (stored : ∀ r ∈ l, r ∈ s.hu.holds) (distinct : l.Nodup) :
    Yielded l s (l.foldl (fun s r => s.yield r) s) := by
  induction l generalizing s with
  | nil => exact yielded_nil s
  | cons r l ih =>
    obtain ⟨absent, distinct⟩ := List.nodup_cons.1 distinct
    obtain ⟨storedR, stored⟩ := List.forall_mem_cons.1 stored
    have first := yielded_yield ok storedR
    refine first.cons (ih (ok.yield storedR) (fun x mem => ?_) distinct) fun x mem own mine number => ?_
    · rw [first.holds, List.mem_filter, decide_eq_true_eq, List.mem_singleton]
      exact ⟨stored x mem, fun same => absent (same ▸ mem)⟩
    · have codes : x.code = r.code := by
        rw [Hold.code, number, HoldTables.origin_eq ok.with (stored x mem) own, ← HoldTables.origin_eq ok.with storedR mine]
        rfl
      exact absent (ok.sorted.inj (stored x mem) storedR codes ▸ mem)

end State

end Sys2Proof.Machine

namespace Sys2Proof.Machine

/-! ## The receipt of a hold frame (R104 to R107) -/

namespace State

variable {s : State}

theorem contentReport_peerGone (s : State) (code : Nat) :
    (s.peerGone code).contentReport = s.contentReport.peerGone code := by
  rw [contentReport_eq, contentReport_eq]
  by_cases muted : s.sc.station = .muted
  · rw [if_pos muted, if_pos (show (s.peerGone code).sc.station = .muted from muted)]
  · rw [if_neg muted, if_neg (show ¬(s.peerGone code).sc.station = .muted from muted)]
    rfl

/-- The end of isolation does not read the holds. -/
theorem heard_peerGone (s : State) (code : Nat) : (s.peerGone code).heard = s.heard.peerGone code := by
  cases isolated : s.lac.isolated with
  | false =>
    have quiet (u : State) (off : u.lac.isolated = false) :
        u.heard = { u with events := u.events + 1, lac.assembler := .waiting } :=
      if_neg (by rw [off]; exact Bool.false_ne_true)
    rw [quiet s isolated, quiet (s.peerGone code) isolated]
    rfl
  | true =>
    rw [heard_of_isolated isolated, heard_of_isolated (s := s.peerGone code) isolated, ← contentReport_peerGone]
    rfl

/-- A hold frame of a known origin with a valid body is an incoming hold (R104). -/
theorem holdFrame_eq {k : FrameKind} {origin : BitVec 16} {body : List Byte} {b : HoldBody}
    (known : s.knows origin.toNat = true) (read : readHoldBody body = some b) :
    s.holdFrame k origin.toNat body = s.incoming (incomingHold k origin b) := by
  unfold holdFrame
  rw [if_pos known, read]
  rfl

theorem holdFrame_ignored {k : FrameKind} {origin : Nat} {body : List Byte}
    (ignored : s.knows origin = false ∨ readHoldBody body = none) : s.holdFrame k origin body = s := by
  unfold holdFrame
  rcases ignored with unknown | unreadable
  · rw [unknown]
    rfl
  · rw [unreadable]
    exact ite_self s

theorem incoming_new {h : Hold} (new : ∀ r ∈ s.hu.holds, r.code ≠ h.code) : s.incoming h = s.contend h := by
  unfold incoming
  rw [Table.lookup_eq_none.2 new]

theorem incoming_same (sorted : Table.Sorted Hold.code s.hu.holds) {h r : Hold} (stored : r ∈ s.hu.holds)
    (code : r.code = h.code) (same : r.start = h.start ∧ r.width = h.width ∧ r.links = h.links) :
    s.incoming h = s.refresh r h := by
  unfold incoming
  rw [(Table.lookup_eq_some sorted).2 ⟨stored, code⟩]
  exact if_pos same

theorem incoming_changed (ok : s.HoldsOk) {h r : Hold} (stored : r ∈ s.hu.holds) (peer : r.own = false)
    (code : r.code = h.code) (changed : ¬(r.start = h.start ∧ r.width = h.width ∧ r.links = h.links)) :
    s.incoming h = (s.peerGone h.code).contend h := by
  have ran : s.incoming h = (s.removeHold h.code).contend h := by
    unfold incoming
    rw [(Table.lookup_eq_some ok.sorted).2 ⟨stored, code⟩]
    exact if_neg changed
  rw [ran, ← code, s.removeHold_peer ok stored peer]

/-! ### The comparison (R106, R107) -/

/-- The records that meet an incoming hold, in rank order. -/
def rivals (s : State) (h : Hold) : List Hold := rankOrder (s.hu.holds.filter fun r => r.overlaps h)

theorem mem_rivals {h r : Hold} : r ∈ s.rivals h ↔ r ∈ s.hu.holds ∧ r.overlaps h = true := by
  rw [rivals, mem_rankOrder, List.mem_filter]

theorem contend_beaten {h : Hold} (beaten : ∃ r ∈ s.hu.holds, r.overlaps h = true ∧ r.outranks h = true) :
    s.contend h = s.objectAll h := by
  obtain ⟨r, stored, meets, beats⟩ := beaten
  exact if_pos (List.any_eq_true.2 ⟨r, mem_rivals.2 ⟨stored, meets⟩, beats⟩)

theorem contend_won {h : Hold} (wins : ∀ r ∈ s.hu.holds, r.overlaps h = true → r.outranks h = false) :
    s.contend h = ((s.rivals h).foldl (fun s r => s.yield r) s).storeHold h := by
  refine if_neg fun beaten => ?_
  obtain ⟨r, mem, beats⟩ := List.any_eq_true.1 beaten
  obtain ⟨stored, meets⟩ := mem_rivals.1 mem
  rw [wins r stored meets] at beats
  cases beats

/-- What an incoming hold that survives makes of the table, the counter and HOLDS_OVERFLOW. -/
theorem storeHold_writes (sorted : Table.Sorted Hold.code s.hu.holds) {h stored : Hold} (peer : h.own = false)
    (new : ∀ r ∈ s.hu.holds, r.code ≠ h.code) (is : stored = { h with lifetime := some (s.peerLifetime h.committed) })
    {superseded : Bool} (lit : superseded = (h.committed && s.isSuperseded stored)) :
    ∃ holds counter overflow mark, s.storeHold h = { s with
      hu.holds := holds, tv.counter := counter, hu.overflow := overflow, clp.marks.overflow := mark } ∧
    (s.peerHolds < 40 → superseded = false →
      holds = insertSorted Hold.code stored s.hu.holds ∧ counter = s.tv.counter + 1#32 ∧ overflow = s.hu.overflow) ∧
    (s.peerHolds < 40 → superseded = true →
      holds = s.hu.holds ∧ counter = s.tv.counter + 1#32 + 1#32 ∧ overflow = false) ∧
    (40 ≤ s.peerHolds → holds = s.hu.holds ∧ counter = s.tv.counter ∧ overflow = true) ∧
    mark = (s.clp.marks.overflow || (s.hu.overflow != overflow)) := by
  by_cases room : s.peerHolds < 40
  · have noFull : ¬40 ≤ s.peerHolds := Nat.not_le.2 room
    cases superseded with
    | false =>
      refine ⟨_, _, s.hu.overflow, s.clp.marks.overflow, storeHold_stored is sorted room ?_, fun _ _ => ⟨rfl, rfl, rfl⟩,
        fun _ => nofun, fun full => absurd full noFull, ?_⟩
      · exact Bool.and_eq_false_iff.1 lit.symm
      · rw [bne_self_eq_false, Bool.or_false]
    | true =>
      obtain ⟨committed, lit⟩ := (Bool.and_eq_true _ _).mp lit.symm
      refine ⟨_, _, _, _, storeHold_superseded is sorted peer room committed lit, fun _ => nofun,
        fun _ _ => ⟨?_, rfl, rfl⟩, fun full => absurd full noFull, ?_⟩
      · exact List.filter_eq_self.2 fun r mem => bne_iff_ne.2 (new r mem)
      · exact congrArg (s.clp.marks.overflow || ·) (Bool.xor_false s.hu.overflow).symm
  · have full := Nat.not_lt.1 room
    refine ⟨s.hu.holds, s.tv.counter, _, _, storeHold_full full, fun few => absurd few room, fun few => absurd few room,
      fun _ => ⟨rfl, rfl, rfl⟩, ?_⟩
    rw [Bool.bne_true]

/-- The peer places free again once some records have yielded. -/
theorem Yielded.peerHolds {l : List Hold} {w : State} (yields : Yielded l s w) (stored : ∀ r ∈ l, r ∈ s.hu.holds) :
    (s.peerHolds ≤ 40 → s.peerHolds < 40 ∨ (∃ r ∈ l, r.own = false) → w.peerHolds < 40) ∧
    ((∀ r ∈ l, r.own = true) → w.peerHolds = s.peerHolds) := by
  have peers : w.peerHolds = ((s.hu.holds.filter fun x => !x.own).filter fun x => decide (x ∉ l)).length := by
    unfold State.peerHolds
    rw [yields.holds, List.filter_filter, List.filter_filter]
    exact congrArg List.length (List.filter_congr fun x _ => Bool.and_comm ..)
  constructor
  · rintro limit (room | ⟨r, mem, peer⟩)
    · rw [peers]
      exact Nat.lt_of_le_of_lt (List.length_filter_le ..) room
    · rw [peers]
      refine Nat.lt_of_lt_of_le (List.length_filter_lt_length_iff_exists.2 ⟨r, ?_, ?_⟩) limit
      · exact List.mem_filter.2 ⟨stored r mem, by rw [peer]; rfl⟩
      · rw [decide_eq_true_eq, not_not]
        exact mem
  · intro own
    rw [peers]
    refine congrArg List.length (List.filter_eq_self.2 fun x mem => decide_eq_true fun inl => ?_)
    have peer := (List.mem_filter.1 mem).2
    rw [own x inl] at peer
    cases peer

/-- Where one slot alone gives something, that is what the search finds. -/
theorem findSome_allSlots {α : Type} {f : Fin 8 → Option α} {i : Fin 8} (only : ∀ j, j ≠ i → f j = none) :
    allSlots.findSome? f = f i := by
  have found (l : List (Fin 8)) (mem : i ∈ l) : l.findSome? f = f i := by
    induction l with
    | nil => cases mem
    | cons j l ih =>
      rw [List.findSome?_cons]
      by_cases same : j = i
      · subst same
        cases is : f j with
        | some x => rfl
        | none =>
          refine List.findSome?_eq_none_iff.2 fun k _ => ?_
          by_cases again : k = j
          · rw [again, is]
          · exact only k again
      · rw [only j same]
        exact ih ((List.mem_cons.1 mem).resolve_left (Ne.symm same))
  exact found allSlots (mem_allSlots i)

/-- The HOLD COMMIT that waits on a lost record, found slot by slot. -/
theorem lostCommit_eq (ok : s.HoldsOk) {r : Hold} (stored : r ∈ s.hu.holds) : s.lostCommit r =
    if r.own then allSlots.findSome? (fun i =>
      match s.slot i with
      | .live sub n _ => if n = r.number then
          sub.commitTag.map (fun c => (⟨.holdCommit, c, .lost, .none, false, .holdNumber n⟩ : Completion))
        else none
      | _ => none) else none := by
  unfold lostCommit
  cases own : r.own with
  | false => rfl
  | true =>
    obtain ⟨i, sub, tag, slot⟩ := ok.slot_live stored own
    have number : (s.slot i).number = some r.number := by rw [slot]; rfl
    have only (j : Fin 8) (same : (s.slot j).number = some r.number) : j = i :=
      ok.numbers j i (by rw [same]; nofun) (same.trans number.symm)
    rw [if_pos rfl, if_pos rfl, State.findSlot_eq_some number only, Option.bind_some, findSome_allSlots (i := i), slot]
    · exact (if_pos rfl).symm
    · intro j ne
      cases at_ : s.slot j with
      | live sub' n tag' =>
        refine if_neg fun same => ne (only j ?_)
        rw [at_, ← same]
        rfl
      | free | closing | ended => rfl

/-- An incoming hold that outranks all it overlaps: the records yield, and it is stored, superseded, or finds no place. -/
theorem contend_survivor (ok : s.HoldsOk) {h stored : Hold} (peer : h.own = false)
    (new : ∀ r ∈ s.hu.holds, r.code ≠ h.code) (is : stored = { h with lifetime := some (s.peerLifetime h.committed) })
    (wins : ∀ r ∈ s.hu.holds, r.overlaps h = true → h.outranks r = true) {superseded : Bool}
    (lit : superseded = (h.committed && s.isSuperseded stored)) :
    ∃ w holds counter overflow mark, Yielded (s.rivals h) s w ∧ s.contend h = { w with
      hu.holds := holds, tv.counter := counter, hu.overflow := overflow, clp.marks.overflow := mark } ∧
    (s.peerHolds < 40 ∨ (∃ r ∈ s.rivals h, r.own = false) → superseded = false →
      holds = insertSorted Hold.code stored w.hu.holds ∧ counter = w.tv.counter + 1#32 ∧ overflow = w.hu.overflow) ∧
    (s.peerHolds < 40 ∨ (∃ r ∈ s.rivals h, r.own = false) → superseded = true →
      holds = w.hu.holds ∧ counter = w.tv.counter + 1#32 + 1#32 ∧ overflow = false) ∧
    (40 ≤ s.peerHolds → (∀ r ∈ s.rivals h, r.own = true) →
      holds = w.hu.holds ∧ counter = w.tv.counter ∧ overflow = true) ∧
    mark = (w.clp.marks.overflow || (w.hu.overflow != overflow)) := by
  have stands : ∀ r ∈ s.rivals h, r ∈ s.hu.holds := fun r mem => (mem_rivals.1 mem).1
  have distinct : (s.rivals h).Nodup := by
    refine (perm_rankOrder _).nodup_iff.2 (List.Nodup.filter _ ?_)
    exact ok.sorted.imp fun lt same => absurd (congrArg Hold.code same) (Nat.ne_of_lt lt)
  have yields := yielded_foldl ok stands distinct
  have differs (r : Hold) (mem : r ∈ s.hu.holds) : h.origin ≠ r.origin ∨ h.number ≠ r.number := by
    rw [← not_and_or]
    exact fun ⟨origin, number⟩ => new r mem (by rw [Hold.code, Hold.code, origin, number])
  have won := contend_won (s := s) (h := h) fun r mem meets =>
    (Hold.outranks_iff_not_outranks (differs r mem)).1 (wins r mem meets)
  generalize (s.rivals h).foldl (fun s r => s.yield r) s = w at yields won
  have kept (r : Hold) (mem : r ∈ w.hu.holds) : r ∈ s.hu.holds := by
    rw [yields.holds] at mem
    exact (List.mem_filter.1 mem).1
  have sorted : Table.Sorted Hold.code w.hu.holds := by
    rw [yields.holds]
    exact List.Pairwise.filter _ ok.sorted
  have timing : w.timing = s.timing := by
    unfold State.timing
    rw [congrArg State.sc yields.stands]
  have lifetime : w.peerLifetime h.committed = s.peerLifetime h.committed := by
    unfold State.peerLifetime State.commitBits State.contestBits State.holdBits
    rw [timing]
  have litW : w.isSuperseded = s.isSuperseded := isSuperseded_congr (congrArg (fun t => t.tv.links) yields.stands)
  obtain ⟨holds, counter, overflow, mark, ran, room, gone, full, marked⟩ := storeHold_writes sorted peer
    (fun r mem => new r (kept r mem)) (is.trans (by rw [lifetime])) (litW ▸ lit)
  obtain ⟨places, still⟩ := yields.peerHolds stands
  exact ⟨w, holds, counter, overflow, mark, yields, won.trans ran, fun free => room (places ok.peers free),
    fun free => gone (places ok.peers free), fun none own => full (still own ▸ none), marked⟩

end State

open State

/-- Settles O51: the repeat, the change, the objection, and the survivor with the records that yield to it. -/
theorem incomingHoldsAreCompared : Obligations.IncomingHoldsAreCompared := by
  unfold Obligations.IncomingHoldsAreCompared
  intro k origin body c u s hears row is
  have taken : exec c s = .next (u.holdFrame k origin.toNat body) := is ▸ exec_holdRow hears row
  have hu : s.hu = u.hu := is ▸ s.heard_hu.symm
  have tv : s.tv = u.tv := is ▸ s.heard_tv.symm
  have sc : s.sc = u.sc := is ▸ s.heard_sc.symm
  have knows : s.knows = u.knows := is ▸ s.heard_knows.symm
  have timing : s.timing = u.timing := by rw [State.timing, sc]; rfl
  have own : s.ownId = u.ownId := by rw [State.ownId, sc]; rfl
  have slot : s.slot = u.slot := slot_congr (congrArg Hu.slots hu)
  have peers : s.peerHolds = u.peerHolds := by rw [State.peerHolds, hu]; rfl
  have lit : s.isSuperseded = u.isSuperseded := isSuperseded_congr (congrArg Tv.links tv)
  have done : s.clp.completions = u.clp.completions := by rw [is, heard_clp]
  have reserved : s.clp.reservations = u.clp.reservations := by rw [is, heard_clp]
  have mark : s.clp.marks.overflow = u.clp.marks.overflow := is ▸ (heard_overflowMark s).symm
  refine ⟨fun ignored => taken.trans (congrArg _ (holdFrame_ignored (knows ▸ ignored))), ?_⟩
  intro b h stored known read hold ok storedIs
  have okU : u.HoldsOk := is ▸ ok.heard
  have lifetime : stored = { h with lifetime := some (u.peerLifetime h.committed) } := by
    rw [storedIs, timing]
    rfl
  have frame : exec c s = .next (u.incoming h) :=
    taken.trans (congrArg _ (hold ▸ holdFrame_eq (knows ▸ known) read))
  have peer : h.own = false := by rw [hold]; rfl
  have other : h.origin ≠ u.ownId := by
    obtain ⟨-, -, -, -, -, -, other⟩ := hears
    rw [hold, ← own]
    exact other
  have peerOf {r : Hold} (mem : r ∈ u.hu.holds) (code : r.code = h.code) : r.own = false := by
    rw [okU.own r mem, (holdCode_inj (show holdCode r.origin r.number = holdCode h.origin h.number from code)).1]
    exact beq_false_of_ne other
  simp only [hu, tv, timing, own, slot, peers, lit, done, reserved, mark]
  have unmet (apart : ∀ r ∈ u.hu.holds, r.overlaps h = false) (new : ∀ r ∈ u.hu.holds, r.code ≠ h.code) :
      u.incoming h = u.storeHold h := by
    have none : u.rivals h = [] := by
      refine List.eq_nil_iff_forall_not_mem.2 fun r mem => ?_
      obtain ⟨mem, meets⟩ := mem_rivals.1 mem
      rw [apart r mem] at meets
      cases meets
    rw [incoming_new new, contend_won fun r mem meets => absurd (apart r mem) (by rw [meets]; nofun), none]
    rfl
  refine ⟨fun r mem code start width links r' after => ⟨fun stands => ?_, fun raised superseded => ?_⟩,
    fun r mem code changed => ?_, fun new => ⟨fun beaten => ?_, fun apart => ⟨fun room stands => ?_,
      fun room committed superseded => ?_, fun full => ?_⟩, fun rivals superseded are _ wins sup => ?_⟩⟩
  · have same := incoming_same okU.sorted mem code ⟨start, width, links⟩
    rw [frame, same, refresh_counted okU.sorted mem after rfl, code]
    refine congrArg Host.Outcome.next ?_
    by_cases as : r'.committed = r.committed
    · exact if_pos as
    · exact (if_neg as).trans (supersede_stands (.inr (stands.resolve_left as)))
  · have same := incoming_same okU.sorted mem code ⟨start, width, links⟩
    rw [frame, same, refresh_superseded okU.sorted mem (peerOf mem code) after raised superseded, code]
  · have changed' : ¬(r.start = h.start ∧ r.width = h.width ∧ r.links = h.links) := by
      rwa [not_and_or, not_and_or]
    have heard : (s.peerGone h.code).heard = u.peerGone h.code := (heard_peerGone s h.code).trans (by rw [is])
    have gone : ∀ x ∈ (u.peerGone h.code).hu.holds, x.code ≠ h.code := fun x mem => bne_iff_ne.1 (List.mem_filter.1 mem).2
    have known' : (u.peerGone h.code).knows origin.toNat = true := knows ▸ known
    have hears' : (s.peerGone h.code).hears origin body := hears
    rw [frame, incoming_changed okU mem (peerOf mem code) code changed', exec_holdRow hears' row, heard,
      holdFrame_eq known' read, ← hold, incoming_new gone]
  · obtain ⟨due, stands⟩ := u.objectAll_stands h
    have places (p : Fin 10) : due[p] = (u.objectAll h).entry p := by rw [stands]; rfl
    refine ⟨due, ?_, ?_, ?_, fun i objects must => ⟨fun yes => ?_, fun no => ?_⟩⟩
    · rw [frame, incoming_new new, contend_beaten beaten, stands]
    · exact (places 8).trans (objectAll_entry_other (fun i => (holdPlace_ne_advert i).symm) h u)
    · exact (places 9).trans (objectAll_entry_other (fun i => (holdPlace_ne_solicit i).symm) h u)
    · rw [must, ← objects_iff okU.sorted] at yes
      rw [makeDue_entry]
      exact (places _).trans ((objectAll_entry h u i).trans (if_pos yes))
    · rw [must, ← objects_iff okU.sorted] at no
      exact (places _).trans ((objectAll_entry h u i).trans (if_neg no))
  · rw [frame, unmet apart new, storeHold_stored lifetime okU.sorted room stands]
  · rw [frame, unmet apart new, storeHold_superseded lifetime okU.sorted peer room committed superseded]
  · rw [frame, unmet apart new, storeHold_full full]
  · have meets {r : Hold} : r ∈ u.rivals h ↔ r ∈ rivals := by rw [are, mem_rivals, List.mem_filter]
    have perm : (u.rivals h).Perm rivals := are ▸ perm_rankOrder _
    obtain ⟨w, holds, counter, overflow, mark', yields, ran, room, gone, full, marked⟩ := contend_survivor okU peer new
      lifetime (fun r mem touches => wins r (are ▸ List.mem_filter.2 ⟨mem, touches⟩)) sup
    have left : w.hu.holds = u.hu.holds.filter fun r => !r.overlaps h := by
      rw [yields.holds]
      refine List.filter_congr fun r mem => ?_
      rw [Bool.eq_iff_iff, decide_eq_true_eq, Bool.not_eq_true', mem_rivals, ← Bool.not_eq_true]
      exact not_congr (and_iff_right mem)
    have counted : w.tv.counter = u.tv.counter + BitVec.ofNat 32 rivals.length := by rw [yields.counter, perm.length_eq]
    have more (x : BitVec 32) (n : Nat) : x + BitVec.ofNat 32 n + 1#32 = x + BitVec.ofNat 32 (n + 1) := by
      rw [BitVec.ofNat_add, BitVec.add_assoc]
    have flows : w.hu.overflow = (u.hu.overflow && rivals.all Hold.own) := by rw [yields.overflow, perm.all_eq]
    refine ⟨_, u.rivals h, (u.rivals h).filterMap u.lostCommit, frame.trans (congrArg _ ((incoming_new new).trans ran)),
      fun free stands => ?_, fun free stands => ?_, fun none mine => ?_, ?_, fun i lost => ?_, fun i stays => ?_,
      perm, ?_, ?_, yields.completions, yields.reservations, ?_, ?_, ?_⟩
    · obtain ⟨holds_is, counter_is, overflow_is⟩ := room (free.imp_right fun ⟨r, mem, peer⟩ => ⟨r, meets.2 mem, peer⟩) stands
      exact ⟨left ▸ holds_is, counter_is.trans (by rw [counted, more]), flows ▸ overflow_is⟩
    · obtain ⟨holds_is, counter_is, overflow_is⟩ := gone (free.imp_right fun ⟨r, mem, peer⟩ => ⟨r, meets.2 mem, peer⟩) stands
      exact ⟨left ▸ holds_is, counter_is.trans (by rw [counted, more _ rivals.length, more _ (rivals.length + 1)]), overflow_is⟩
    · obtain ⟨holds_is, counter_is, overflow_is⟩ := full none fun r mem => mine r (meets.1 mem)
      exact ⟨left ▸ holds_is, counter_is.trans counted, overflow_is⟩
    · have was := yields.mark
      rw [flows] at was
      refine marked.trans ?_
      rw [was, flows]
      cases tight : rivals.all Hold.own with
      | false =>
        obtain ⟨r, mem, peer⟩ := List.all_eq_false.1 tight
        have free : u.peerHolds < 40 ∨ ∃ r ∈ u.rivals h, r.own = false :=
          .inr ⟨r, meets.2 mem, Bool.eq_false_of_not_eq_true peer⟩
        have cleared : overflow = false := by
          cases superseded with
          | false =>
            obtain ⟨-, -, overflow_is⟩ := room free rfl
            rw [overflow_is, flows, tight, Bool.and_false]
          | true =>
            obtain ⟨-, -, overflow_is⟩ := gone free rfl
            exact overflow_is
        rw [cleared, Bool.and_false, bne_self_eq_false, Bool.or_false]
      | true => rw [Bool.and_true, bne_self_eq_false, Bool.or_false]
    · obtain ⟨r, mem, rest⟩ := lost
      exact yields.lost i ⟨r, meets.2 mem, rest⟩
    · exact yields.stays i fun ⟨r, mem, own, number⟩ => stays r (meets.1 mem) own number
    · refine pairwise_rankOrder (List.Pairwise.filter _ ?_)
      exact okU.sorted.imp fun lt => Nat.ne_of_lt lt
    · refine List.filterMap_congr fun r mem => ?_
      exact lostCommit_eq okU (mem_rivals.1 mem).1
    · exact yields.other 8 fun i => (holdPlace_ne_advert i).symm
    · exact yields.other 9 fun i => (holdPlace_ne_solicit i).symm
    · rw [yields.stands]

end Sys2Proof.Machine
